-- ==== Sys2Proof/Word.lean ====
section
/-! DEFINITION. The widths of the machine's data (00_scope.md R2, R6): bytes, halfwords, words, and the 64-bit
patterns of the floating-point registers. -/

namespace Sys2Proof

/-- `byte(_)`: 8 bits, the addressable unit (R6, R70). -/
abbrev Byte := BitVec 8
/-- `half(_)`: 16 bits, also the immediate field of an I-type instruction (R102). -/
abbrev Half := BitVec 16
/-- `word(_)`: 32 bits, an indexed register, an address, an instruction (R6). -/
abbrev Word := BitVec 32
/-- `long(_)`: 64 bits, the pattern a floating-point register holds (R16, R35). -/
abbrev Long := BitVec 64

/-- The index of one of the 16 indexed registers (R30) or of the 16 floating-point registers (R35). -/
abbrev Reg := Fin 16

end Sys2Proof
end

