-- ==== Sys2Proof/Machine/Bytes.lean ====
section
/-! DEFINITION. Byte order and bit slices, decided once: little endian (20_memory.md R71, R72), and the fields
`v[hi:lo]` of a word (00_scope.md R8). -/

namespace Sys2Proof

/-- The value of a list of bytes, the first the least significant (R13, R71). -/
def leValue : List Byte → Nat
  | [] => 0
  | b :: bs => b.toNat + 256 * leValue bs

/-- The `n` low bytes of a value, the least significant first (R13, R71). -/
def leBytes : Nat → Nat → List Byte
  | 0, _ => []
  | n + 1, v => BitVec.ofNat 8 v :: leBytes n (v / 256)

/-- `w[lo + width - 1 : lo]` as a number (R8). -/
def bits (w : Word) (lo width : Nat) : Nat :=
  w.toNat / 2 ^ lo % 2 ^ width

/-- The 4-bit register field whose low bit is `lo` (30_encoding.md R110). -/
def reg4 (w : Word) (lo : Nat) : Reg :=
  ⟨bits w lo 4, Nat.mod_lt _ (by decide)⟩

/-- The 3-bit register field whose low bit is `lo`: it names register 0 to 7 (R110; 10_state.md R34, R36). -/
def reg3 (w : Word) (lo : Nat) : Reg :=
  ⟨bits w lo 3, Nat.lt_trans (Nat.mod_lt _ (by decide)) (by decide)⟩

/-- The 16-bit immediate of the I-type (R102), bits 15..0. -/
def imm16 (w : Word) : Half :=
  BitVec.ofNat 16 (bits w 0 16)

/-- The 24-bit immediate of the J-type (R106), bits 23..0. -/
def imm24 (w : Word) : BitVec 24 :=
  BitVec.ofNat 24 (bits w 0 24)

end Sys2Proof
end

