-- ==== Sys2Proof/Syntax.lean ====
section
/-! DEFINITION. The instructions: one constructor per row of spec/opcode_table.json, operands in the order of the
source's Machine Code cell (30_encoding.md R110, R121). An operand register is an index 0 to 15; WellFormed says
which instructions reach only 0 to 7. A field the row does not use is no operand (R107). -/

namespace Sys2Proof

/-- The 116 rows of the nine instruction tables (00_scope.md R4). -/
inductive Instr where
  -- 40_control.md
  /-- NOP (R140). -/
  | nop
  -- 41_arith_logic.md
  /-- ADD (R155). -/
  | add (ra rb rc : Reg)
  /-- ADDI (R156). -/
  | addi (ra rb : Reg) (imm : Half)
  /-- ADDIU (R157). -/
  | addiu (ra rb : Reg) (imm : Half)
  /-- SUB (R158). -/
  | sub (ra rb rc : Reg)
  /-- SUBI (R159). -/
  | subi (ra rb : Reg) (imm : Half)
  /-- SUBIU (R160). -/
  | subiu (ra rb : Reg) (imm : Half)
  /-- MUL (R161). -/
  | mul (ra rb rc : Reg)
  /-- MULI (R162). -/
  | muli (ra rb : Reg) (imm : Half)
  /-- MULIU (R163). -/
  | muliu (ra rb : Reg) (imm : Half)
  /-- DIV (R164). -/
  | div (ra rb rc : Reg)
  /-- DIVI (R165). -/
  | divi (ra rb : Reg) (imm : Half)
  /-- DIVIU (R166). -/
  | diviu (ra rb : Reg) (imm : Half)
  /-- MOD (R167). -/
  | mod (ra rb rc : Reg)
  /-- MODI (R168). -/
  | modi (ra rb : Reg) (imm : Half)
  /-- MODIU (R169). -/
  | modiu (ra rb : Reg) (imm : Half)
  /-- SHL (R170). -/
  | shl (ra rb rc : Reg)
  /-- SHLI (R171). -/
  | shli (ra rb : Reg) (imm : Half)
  /-- SLR (R172). -/
  | slr (ra rb rc : Reg)
  /-- SLRI (R173). -/
  | slri (ra rb : Reg) (imm : Half)
  /-- SAR (R174). -/
  | sar (ra rb rc : Reg)
  /-- SARI (R175). -/
  | sari (ra rb : Reg) (imm : Half)
  /-- AND (R176). -/
  | and (ra rb rc : Reg)
  /-- OR (R177). -/
  | or (ra rb rc : Reg)
  /-- XOR (R178). -/
  | xor (ra rb rc : Reg)
  /-- NOT (R179). -/
  | not (ra rb : Reg)
  /-- EQ (R180). -/
  | eq (ra rb rc : Reg)
  /-- NE (R181). -/
  | ne (ra rb rc : Reg)
  /-- LT (R182). -/
  | lt (ra rb rc : Reg)
  /-- LTU (R183). -/
  | ltu (ra rb rc : Reg)
  /-- GT (R184). -/
  | gt (ra rb rc : Reg)
  /-- GTU (R185). -/
  | gtu (ra rb rc : Reg)
  /-- LE (R186). -/
  | le (ra rb rc : Reg)
  /-- LEU (R187). -/
  | leu (ra rb rc : Reg)
  /-- GE (R188). -/
  | ge (ra rb rc : Reg)
  /-- GEU (R189). -/
  | geu (ra rb rc : Reg)
  -- 42_branch_jump.md
  /-- B (R201). -/
  | b (imm : Half)
  /-- BE (R202). -/
  | be (ra rb : Reg) (imm : Half)
  /-- BNE (R203). -/
  | bne (ra rb : Reg) (imm : Half)
  /-- BNEZ (R204, a second spelling of BNE with rb = R0). -/
  | bnez (ra : Reg) (imm : Half)
  /-- BLT (R205). -/
  | blt (ra rb : Reg) (imm : Half)
  /-- BGT (R206). -/
  | bgt (ra rb : Reg) (imm : Half)
  /-- J (R207). -/
  | j (imm24 : BitVec 24)
  /-- JR (R208). -/
  | jr (ra : Reg)
  /-- CALL (R209). -/
  | call (ra : Reg)
  /-- RET (R210). -/
  | ret
  -- 43_load_store.md
  /-- LW (R221). -/
  | lw (ra rb : Reg) (imm : Half)
  /-- LH (R222). -/
  | lh (ra rb : Reg) (imm : Half)
  /-- LB (R223). -/
  | lb (ra rb : Reg) (imm : Half)
  /-- LF (R224). -/
  | lf (fa ra : Reg) (imm : Half)
  /-- LI (R225). -/
  | li (ra : Reg) (imm : Half)
  /-- LIU (R226). -/
  | liu (ra : Reg) (imm : Half)
  /-- LIH (R227). -/
  | lih (ra : Reg) (imm : Half)
  /-- SW (R228). -/
  | sw (ra rb : Reg) (imm : Half)
  /-- SH (R229). -/
  | sh (ra rb : Reg) (imm : Half)
  /-- SB (R230). -/
  | sb (ra rb : Reg) (imm : Half)
  /-- SF (R231). -/
  | sf (ra fa : Reg) (imm : Half)
  -- 44_stack.md
  /-- POPW (R242). -/
  | popw (ra : Reg)
  /-- POPH (R243). -/
  | poph (ra : Reg)
  /-- POPB (R244). -/
  | popb (ra : Reg)
  /-- POPF (R245). -/
  | popf (fa : Reg)
  /-- POPA (R246). -/
  | popa (ra : Reg)
  /-- PSHW (R247). -/
  | pshw (ra : Reg)
  /-- PSHH (R248). -/
  | pshh (ra : Reg)
  /-- PSHB (R249). -/
  | pshb (ra : Reg)
  /-- PSHF (R250). -/
  | pshf (fa : Reg)
  /-- PSHA (R251). -/
  | psha (ra : Reg)
  -- 45_float.md
  /-- ADDF (R266). -/
  | addf (fa fb fc : Reg)
  /-- SUBF (R267). -/
  | subf (fa fb fc : Reg)
  /-- MULF (R268). -/
  | mulf (fa fb fc : Reg)
  /-- DIVF (R269). -/
  | divf (fa fb fc : Reg)
  /-- EQF (R270). -/
  | eqf (fa fb fc : Reg)
  /-- NEF (R271). -/
  | nef (fa fb fc : Reg)
  /-- LTF (R272). -/
  | ltf (fa fb fc : Reg)
  /-- GTF (R273). -/
  | gtf (fa fb fc : Reg)
  /-- LEF (R274). -/
  | lef (fa fb fc : Reg)
  /-- GEF (R275, printed as a second GTF in the source). -/
  | gef (fa fb fc : Reg)
  /-- POW (R276). -/
  | pow (fa fb fc : Reg)
  /-- FABS (R277). -/
  | fabs (fa fb : Reg)
  /-- LOG (R278). -/
  | log (fa fb : Reg)
  /-- LOGT (R279). -/
  | logt (fa fb : Reg)
  /-- EXP (R280). -/
  | exp (fa fb : Reg)
  /-- FLOR (R281). -/
  | flor (fa fb : Reg)
  /-- CEIL (R282). -/
  | ceil (fa fb : Reg)
  /-- SIN (R283). -/
  | sin (fa fb : Reg)
  /-- COS (R284). -/
  | cos (fa fb : Reg)
  /-- TAN (R285). -/
  | tan (fa fb : Reg)
  /-- ASIN (R286). -/
  | asin (fa fb : Reg)
  /-- ACOS (R287). -/
  | acos (fa fb : Reg)
  /-- ATAN (R288). -/
  | atan (fa fb : Reg)
  /-- SQRT (R289). -/
  | sqrt (fa fb : Reg)
  /-- FMOD (R290). -/
  | fmod (fa fb fc : Reg)
  -- 46_conversion.md
  /-- CIF (R301). -/
  | cif (fa ra : Reg)
  /-- CUF (R302). -/
  | cuf (fa ra : Reg)
  /-- CFI (R303). -/
  | cfi (ra fa : Reg)
  /-- CFU (R304). -/
  | cfu (ra fa : Reg)
  -- 47_system.md
  /-- IDLE (R310). -/
  | idle
  /-- CLI (R311). -/
  | cli (rc : Reg)
  /-- STI (R312). -/
  | sti
  /-- LUSP (R313). -/
  | lusp (rc : Reg)
  /-- SUSP (R314). -/
  | susp (rc : Reg)
  /-- IRET (R315). -/
  | iret
  /-- BIN (R316). -/
  | bin (rc : Reg)
  /-- BOUT (R317). -/
  | bout (rc : Reg)
  /-- TRAP (R318). -/
  | trap
  /-- STIV (R319). -/
  | stiv (rc : Reg)
  /-- STPD (R320). -/
  | stpd (rc : Reg)
  /-- STPG (R321). -/
  | stpg (rc : Reg)
  /-- STTO (R322). -/
  | stto (rc : Reg)
  /-- LVAD (R323). -/
  | lvad (rc : Reg)
  /-- HALT (R324). -/
  | halt
  -- 48_memory_block.md
  /-- LMSZ (R341). -/
  | lmsz (ra : Reg)
  /-- MCPY (R342). -/
  | mcpy (ra rb rc : Reg)
  /-- MCMP (R343). -/
  | mcmp (ra rb rc : Reg)
  /-- MCHR (R344). -/
  | mchr (ra rb rc : Reg)
  /-- MSET (R345). -/
  | mset (ra rb rc : Reg)
  deriving DecidableEq, Repr

end Sys2Proof
end

