-- ==== Sys2Proof/WellFormed.lean ====
section
/-! DEFINITION. Which terms of `Instr` have an encoding: a register operand of an old-style instruction (the
Floating-point, Conversion, System and Memory tables) is a 3-bit field, so it names a register 0 to 7
(10_state.md R34, R36). The 4-bit fields and the immediates fit by their types. -/

namespace Sys2Proof

/-- A 3-bit field names registers 0 to 7 only (R34: R0, T0 to T4, S0, S1; R36: F0 to F7). -/
def Reg.reach3 (r : Reg) : Bool := r.val < 8

/-- Every operand of the instruction fits its field. -/
def WellFormed (i : Instr) : Bool :=
  match i with
  | .nop => true
  | .add _ _ _ => true
  | .addi _ _ _ => true
  | .addiu _ _ _ => true
  | .sub _ _ _ => true
  | .subi _ _ _ => true
  | .subiu _ _ _ => true
  | .mul _ _ _ => true
  | .muli _ _ _ => true
  | .muliu _ _ _ => true
  | .div _ _ _ => true
  | .divi _ _ _ => true
  | .diviu _ _ _ => true
  | .mod _ _ _ => true
  | .modi _ _ _ => true
  | .modiu _ _ _ => true
  | .shl _ _ _ => true
  | .shli _ _ _ => true
  | .slr _ _ _ => true
  | .slri _ _ _ => true
  | .sar _ _ _ => true
  | .sari _ _ _ => true
  | .and _ _ _ => true
  | .or _ _ _ => true
  | .xor _ _ _ => true
  | .not _ _ => true
  | .eq _ _ _ => true
  | .ne _ _ _ => true
  | .lt _ _ _ => true
  | .ltu _ _ _ => true
  | .gt _ _ _ => true
  | .gtu _ _ _ => true
  | .le _ _ _ => true
  | .leu _ _ _ => true
  | .ge _ _ _ => true
  | .geu _ _ _ => true
  | .b _ => true
  | .be _ _ _ => true
  | .bne _ _ _ => true
  | .bnez _ _ => true
  | .blt _ _ _ => true
  | .bgt _ _ _ => true
  | .j _ => true
  | .jr _ => true
  | .call _ => true
  | .ret => true
  | .lw _ _ _ => true
  | .lh _ _ _ => true
  | .lb _ _ _ => true
  | .lf _ _ _ => true
  | .li _ _ => true
  | .liu _ _ => true
  | .lih _ _ => true
  | .sw _ _ _ => true
  | .sh _ _ _ => true
  | .sb _ _ _ => true
  | .sf _ _ _ => true
  | .popw _ => true
  | .poph _ => true
  | .popb _ => true
  | .popf _ => true
  | .popa _ => true
  | .pshw _ => true
  | .pshh _ => true
  | .pshb _ => true
  | .pshf _ => true
  | .psha _ => true
  | .addf fa fb fc => Reg.reach3 fa && Reg.reach3 fb && Reg.reach3 fc
  | .subf fa fb fc => Reg.reach3 fa && Reg.reach3 fb && Reg.reach3 fc
  | .mulf fa fb fc => Reg.reach3 fa && Reg.reach3 fb && Reg.reach3 fc
  | .divf fa fb fc => Reg.reach3 fa && Reg.reach3 fb && Reg.reach3 fc
  | .eqf fa fb fc => Reg.reach3 fa && Reg.reach3 fb && Reg.reach3 fc
  | .nef fa fb fc => Reg.reach3 fa && Reg.reach3 fb && Reg.reach3 fc
  | .ltf fa fb fc => Reg.reach3 fa && Reg.reach3 fb && Reg.reach3 fc
  | .gtf fa fb fc => Reg.reach3 fa && Reg.reach3 fb && Reg.reach3 fc
  | .lef fa fb fc => Reg.reach3 fa && Reg.reach3 fb && Reg.reach3 fc
  | .gef fa fb fc => Reg.reach3 fa && Reg.reach3 fb && Reg.reach3 fc
  | .pow fa fb fc => Reg.reach3 fa && Reg.reach3 fb && Reg.reach3 fc
  | .fabs fa fb => Reg.reach3 fa && Reg.reach3 fb
  | .log fa fb => Reg.reach3 fa && Reg.reach3 fb
  | .logt fa fb => Reg.reach3 fa && Reg.reach3 fb
  | .exp fa fb => Reg.reach3 fa && Reg.reach3 fb
  | .flor fa fb => Reg.reach3 fa && Reg.reach3 fb
  | .ceil fa fb => Reg.reach3 fa && Reg.reach3 fb
  | .sin fa fb => Reg.reach3 fa && Reg.reach3 fb
  | .cos fa fb => Reg.reach3 fa && Reg.reach3 fb
  | .tan fa fb => Reg.reach3 fa && Reg.reach3 fb
  | .asin fa fb => Reg.reach3 fa && Reg.reach3 fb
  | .acos fa fb => Reg.reach3 fa && Reg.reach3 fb
  | .atan fa fb => Reg.reach3 fa && Reg.reach3 fb
  | .sqrt fa fb => Reg.reach3 fa && Reg.reach3 fb
  | .fmod fa fb fc => Reg.reach3 fa && Reg.reach3 fb && Reg.reach3 fc
  | .cif fa ra => Reg.reach3 fa && Reg.reach3 ra
  | .cuf fa ra => Reg.reach3 fa && Reg.reach3 ra
  | .cfi ra fa => Reg.reach3 ra && Reg.reach3 fa
  | .cfu ra fa => Reg.reach3 ra && Reg.reach3 fa
  | .idle => true
  | .cli rc => Reg.reach3 rc
  | .sti => true
  | .lusp rc => Reg.reach3 rc
  | .susp rc => Reg.reach3 rc
  | .iret => true
  | .bin rc => Reg.reach3 rc
  | .bout rc => Reg.reach3 rc
  | .trap => true
  | .stiv rc => Reg.reach3 rc
  | .stpd rc => Reg.reach3 rc
  | .stpg rc => Reg.reach3 rc
  | .stto rc => Reg.reach3 rc
  | .lvad rc => Reg.reach3 rc
  | .halt => true
  | .lmsz ra => Reg.reach3 ra
  | .mcpy ra rb rc => Reg.reach3 ra && Reg.reach3 rb && Reg.reach3 rc
  | .mcmp ra rb rc => Reg.reach3 ra && Reg.reach3 rb && Reg.reach3 rc
  | .mchr ra rb rc => Reg.reach3 ra && Reg.reach3 rb && Reg.reach3 rc
  | .mset ra rb rc => Reg.reach3 ra && Reg.reach3 rb && Reg.reach3 rc

end Sys2Proof
end

