-- ==== Sys2Proof/Decode.lean ====
section
/-! DEFINITION. Decoding (30_encoding.md R115: total, every word that is no instruction rejected by name) and, after
it, the encoder, written from the formats R101 to R106 and the maps R111 to R114. -/

namespace Sys2Proof

/-- Why a word is no instruction (R116: each is `IllegalInstruction`), or why bytes are no word. -/
inductive Reject where
  /-- bits 31..24 zero and another bit set (R118) -/
  | nopShape
  /-- bits 31..24 of 42 to 65 or of A0 to FD (R116) -/
  | unassignedOpcode
  /-- a system group and sub without a row (R113, R116) -/
  | unassignedSystem
  /-- op_code 000, 110 or 111 of the Memory group (R114, R116) -/
  | unassignedMemory
  /-- group 111, sub 111 and not the HALT word (R119) -/
  | haltShape
  /-- fewer than the four bytes of an instruction (R100) -/
  | tooShort
  deriving DecidableEq, Repr

/-- The new-style map (R111), by op_code = bits 31..24. -/
def decodeNew (op : Nat) (w : Word) : Option Instr :=
  match op with
  | 0x01 => some (.add (reg4 w 20) (reg4 w 16) (reg4 w 12))
  | 0x02 => some (.addi (reg4 w 20) (reg4 w 16) (imm16 w))
  | 0x03 => some (.addiu (reg4 w 20) (reg4 w 16) (imm16 w))
  | 0x04 => some (.sub (reg4 w 20) (reg4 w 16) (reg4 w 12))
  | 0x05 => some (.subi (reg4 w 20) (reg4 w 16) (imm16 w))
  | 0x06 => some (.subiu (reg4 w 20) (reg4 w 16) (imm16 w))
  | 0x07 => some (.mul (reg4 w 20) (reg4 w 16) (reg4 w 12))
  | 0x08 => some (.muli (reg4 w 20) (reg4 w 16) (imm16 w))
  | 0x09 => some (.muliu (reg4 w 20) (reg4 w 16) (imm16 w))
  | 0x0A => some (.div (reg4 w 20) (reg4 w 16) (reg4 w 12))
  | 0x0B => some (.divi (reg4 w 20) (reg4 w 16) (imm16 w))
  | 0x0C => some (.diviu (reg4 w 20) (reg4 w 16) (imm16 w))
  | 0x0D => some (.mod (reg4 w 20) (reg4 w 16) (reg4 w 12))
  | 0x0E => some (.modi (reg4 w 20) (reg4 w 16) (imm16 w))
  | 0x0F => some (.modiu (reg4 w 20) (reg4 w 16) (imm16 w))
  | 0x10 => some (.shl (reg4 w 20) (reg4 w 16) (reg4 w 12))
  | 0x11 => some (.shli (reg4 w 20) (reg4 w 16) (imm16 w))
  | 0x12 => some (.slr (reg4 w 20) (reg4 w 16) (reg4 w 12))
  | 0x13 => some (.slri (reg4 w 20) (reg4 w 16) (imm16 w))
  | 0x14 => some (.sar (reg4 w 20) (reg4 w 16) (reg4 w 12))
  | 0x15 => some (.sari (reg4 w 20) (reg4 w 16) (imm16 w))
  | 0x16 => some (.and (reg4 w 20) (reg4 w 16) (reg4 w 12))
  | 0x17 => some (.or (reg4 w 20) (reg4 w 16) (reg4 w 12))
  | 0x18 => some (.xor (reg4 w 20) (reg4 w 16) (reg4 w 12))
  | 0x19 => some (.not (reg4 w 20) (reg4 w 16))
  | 0x1A => some (.eq (reg4 w 20) (reg4 w 16) (reg4 w 12))
  | 0x1B => some (.ne (reg4 w 20) (reg4 w 16) (reg4 w 12))
  | 0x1C => some (.lt (reg4 w 20) (reg4 w 16) (reg4 w 12))
  | 0x1D => some (.ltu (reg4 w 20) (reg4 w 16) (reg4 w 12))
  | 0x1E => some (.gt (reg4 w 20) (reg4 w 16) (reg4 w 12))
  | 0x1F => some (.gtu (reg4 w 20) (reg4 w 16) (reg4 w 12))
  | 0x20 => some (.le (reg4 w 20) (reg4 w 16) (reg4 w 12))
  | 0x21 => some (.leu (reg4 w 20) (reg4 w 16) (reg4 w 12))
  | 0x22 => some (.ge (reg4 w 20) (reg4 w 16) (reg4 w 12))
  | 0x23 => some (.geu (reg4 w 20) (reg4 w 16) (reg4 w 12))
  | 0x24 => some (.b (imm16 w))
  | 0x25 => some (.be (reg4 w 20) (reg4 w 16) (imm16 w))
  | 0x26 => some (.bne (reg4 w 20) (reg4 w 16) (imm16 w))
  | 0x27 => some (.blt (reg4 w 20) (reg4 w 16) (imm16 w))
  | 0x28 => some (.bgt (reg4 w 20) (reg4 w 16) (imm16 w))
  | 0x29 => some (.j (imm24 w))
  | 0x2A => some (.jr (reg4 w 20))
  | 0x2B => some (.call (reg4 w 20))
  | 0x2C => some (.ret)
  | 0x2D => some (.lw (reg4 w 20) (reg4 w 16) (imm16 w))
  | 0x2E => some (.lh (reg4 w 20) (reg4 w 16) (imm16 w))
  | 0x2F => some (.lb (reg4 w 20) (reg4 w 16) (imm16 w))
  | 0x30 => some (.lf (reg4 w 20) (reg4 w 16) (imm16 w))
  | 0x31 => some (.li (reg4 w 20) (imm16 w))
  | 0x32 => some (.liu (reg4 w 20) (imm16 w))
  | 0x33 => some (.lih (reg4 w 20) (imm16 w))
  | 0x34 => some (.sw (reg4 w 20) (reg4 w 16) (imm16 w))
  | 0x35 => some (.sh (reg4 w 20) (reg4 w 16) (imm16 w))
  | 0x36 => some (.sb (reg4 w 20) (reg4 w 16) (imm16 w))
  | 0x37 => some (.sf (reg4 w 20) (reg4 w 16) (imm16 w))
  | 0x38 => some (.popw (reg4 w 20))
  | 0x39 => some (.poph (reg4 w 20))
  | 0x3A => some (.popb (reg4 w 20))
  | 0x3B => some (.popf (reg4 w 20))
  | 0x3C => some (.popa (reg4 w 20))
  | 0x3D => some (.pshw (reg4 w 20))
  | 0x3E => some (.pshh (reg4 w 20))
  | 0x3F => some (.pshb (reg4 w 20))
  | 0x40 => some (.pshf (reg4 w 20))
  | 0x41 => some (.psha (reg4 w 20))
  | _ => none

/-- The Floating-point and Conversion map (R112), by opcode7 = bits 31..25; fields at 24..22, 21..19, 18..16. -/
def decodeFloat (op7 : Nat) (w : Word) : Option Instr :=
  match op7 with
  | 0x33 => some (.addf (reg3 w 22) (reg3 w 19) (reg3 w 16))
  | 0x34 => some (.subf (reg3 w 22) (reg3 w 19) (reg3 w 16))
  | 0x35 => some (.mulf (reg3 w 22) (reg3 w 19) (reg3 w 16))
  | 0x36 => some (.divf (reg3 w 22) (reg3 w 19) (reg3 w 16))
  | 0x37 => some (.eqf (reg3 w 22) (reg3 w 19) (reg3 w 16))
  | 0x38 => some (.nef (reg3 w 22) (reg3 w 19) (reg3 w 16))
  | 0x39 => some (.ltf (reg3 w 22) (reg3 w 19) (reg3 w 16))
  | 0x3A => some (.gtf (reg3 w 22) (reg3 w 19) (reg3 w 16))
  | 0x3B => some (.lef (reg3 w 22) (reg3 w 19) (reg3 w 16))
  | 0x3C => some (.gef (reg3 w 22) (reg3 w 19) (reg3 w 16))
  | 0x3D => some (.pow (reg3 w 22) (reg3 w 19) (reg3 w 16))
  | 0x3E => some (.fabs (reg3 w 22) (reg3 w 19))
  | 0x3F => some (.log (reg3 w 22) (reg3 w 19))
  | 0x40 => some (.logt (reg3 w 22) (reg3 w 19))
  | 0x41 => some (.exp (reg3 w 22) (reg3 w 19))
  | 0x42 => some (.flor (reg3 w 22) (reg3 w 19))
  | 0x43 => some (.ceil (reg3 w 22) (reg3 w 19))
  | 0x44 => some (.sin (reg3 w 22) (reg3 w 19))
  | 0x45 => some (.cos (reg3 w 22) (reg3 w 19))
  | 0x46 => some (.tan (reg3 w 22) (reg3 w 19))
  | 0x47 => some (.asin (reg3 w 22) (reg3 w 19))
  | 0x48 => some (.acos (reg3 w 22) (reg3 w 19))
  | 0x49 => some (.atan (reg3 w 22) (reg3 w 19))
  | 0x4A => some (.sqrt (reg3 w 22) (reg3 w 19))
  | 0x4B => some (.fmod (reg3 w 22) (reg3 w 19) (reg3 w 16))
  | 0x4C => some (.cif (reg3 w 22) (reg3 w 19))
  | 0x4D => some (.cuf (reg3 w 22) (reg3 w 19))
  | 0x4E => some (.cfi (reg3 w 22) (reg3 w 19))
  | 0x4F => some (.cfu (reg3 w 22) (reg3 w 19))
  | _ => none

/-- The Memory map (R114), by op_code = bits 21..19; fields at 18..16, 15..13, 12..10. -/
def decodeBlock (w : Word) : Except Reject Instr :=
  match bits w 19 3 with
  | 1 => .ok (.lmsz (reg3 w 16))
  | 2 => .ok (.mcpy (reg3 w 16) (reg3 w 13) (reg3 w 10))
  | 3 => .ok (.mcmp (reg3 w 16) (reg3 w 13) (reg3 w 10))
  | 4 => .ok (.mchr (reg3 w 16) (reg3 w 13) (reg3 w 10))
  | 5 => .ok (.mset (reg3 w 16) (reg3 w 13) (reg3 w 10))
  | _ => .error .unassignedMemory

/-- The System map (R113), by group = bits 24..22 and sub = bits 21..19; IDLE, IRET and TRAP by group alone. -/
def decodeSystem (w : Word) : Except Reject Instr :=
  match bits w 22 3, bits w 19 3 with
  | 0, _ => .ok (.idle)
  | 1, 1 => .ok (.cli (reg3 w 16))
  | 1, 2 => .ok (.sti)
  | 2, 1 => .ok (.lusp (reg3 w 16))
  | 2, 2 => .ok (.susp (reg3 w 16))
  | 3, _ => .ok (.iret)
  | 4, 1 => .ok (.bin (reg3 w 16))
  | 4, 2 => .ok (.bout (reg3 w 16))
  | 6, _ => .ok (.trap)
  | 7, 0 => .ok (.stiv (reg3 w 16))
  | 7, 1 => .ok (.stpd (reg3 w 16))
  | 7, 2 => .ok (.stpg (reg3 w 16))
  | 7, 3 => .ok (.stto (reg3 w 16))
  | 7, 4 => .ok (.lvad (reg3 w 16))
  | 7, 7 => .error .haltShape
  | _, _ => .error .unassignedSystem

/-- The decoding procedure of R115, in its order. -/
def decode (w : Word) : Except Reject Instr :=
  if w = 0#32 then .ok .nop
  else if bits w 24 8 = 0 then .error .nopShape
  else
    match decodeNew (bits w 24 8) w with
    | some i => .ok i
    | none =>
      match decodeFloat (bits w 25 7) w with
      | some i => .ok i
      | none =>
        if bits w 25 7 = 0x7F then
          if bits w 22 3 = 5 then decodeBlock w
          else if w = 0xFFFFFFFF#32 then .ok .halt
          else decodeSystem w
        else .error .unassignedOpcode

/-- Decoding of the bytes as they lie in memory: the first four make the word, little endian (R72). -/
def decodeBytes : List Byte → Except Reject Instr
  | b0 :: b1 :: b2 :: b3 :: _ => decode (BitVec.ofNat 32 (leValue [b0, b1, b2, b3]))
  | _ => .error .tooShort

/-- The instruction decoded from an instruction whose bits are `w`, the bits from `nbits` on zero: laid out in
memory byte order (R72) and given to the decoder. -/
def decodeTableWord (nbits w : Nat) : Option Instr :=
  match decodeBytes (leBytes 4 (w % 2 ^ nbits)) with
  | .ok i => some i
  | .error _ => none

/-- The instruction the decoder yields for an instruction's word: BNEZ is a second spelling of BNE with rb = R0
(R122, R204); every other instruction is itself. -/
def Instr.core : Instr → Instr
  | .bnez ra imm => .bne ra 0 imm
  | i => i

/-! The encoder. Fields are placed at the low bits the formats give; unused fields are zero (R107). -/

/-- R-type (R101): op_code 31..24, ra 23..20, rb 19..16, rc 15..12. -/
def encodeR (op : Nat) (ra rb rc : Reg) : Word :=
  BitVec.ofNat 32 (op * 2 ^ 24 + ra.val * 2 ^ 20 + rb.val * 2 ^ 16 + rc.val * 2 ^ 12)

/-- I-type (R102): op_code 31..24, ra 23..20, rb 19..16, imm 15..0. -/
def encodeI (op : Nat) (ra rb : Reg) (imm : Half) : Word :=
  BitVec.ofNat 32 (op * 2 ^ 24 + ra.val * 2 ^ 20 + rb.val * 2 ^ 16 + imm.toNat)

/-- J-type (R106): op_code 31..24, imm24 23..0. -/
def encodeJ (op : Nat) (imm : BitVec 24) : Word :=
  BitVec.ofNat 32 (op * 2 ^ 24 + imm.toNat)

/-- F-type (R103): opcode7 31..25, a 24..22, b 21..19, c 18..16. -/
def encodeF (op7 : Nat) (a b c : Reg) : Word :=
  BitVec.ofNat 32 (op7 * 2 ^ 25 + a.val * 2 ^ 22 + b.val * 2 ^ 19 + c.val * 2 ^ 16)

/-- S-type (R104): 1111111 31..25, group 24..22, sub 21..19, rc 18..16. -/
def encodeS (group sub : Nat) (rc : Reg) : Word :=
  BitVec.ofNat 32 (0x7F * 2 ^ 25 + group * 2 ^ 22 + sub * 2 ^ 19 + rc.val * 2 ^ 16)

/-- M-type (R105): 1111111 101 31..22, op_code 21..19, ra 18..16, rb 15..13, rc 12..10. -/
def encodeM (op : Nat) (ra rb rc : Reg) : Word :=
  BitVec.ofNat 32 (0x3FD * 2 ^ 22 + op * 2 ^ 19 + ra.val * 2 ^ 16 + rb.val * 2 ^ 13 + rc.val * 2 ^ 10)

/-- The word of an instruction, the inverse of `decode` on well-formed instructions. -/
def encode (i : Instr) : Word :=
  match i with
  | .nop => 0#32
  | .add ra rb rc => encodeR 0x01 ra rb rc
  | .addi ra rb imm => encodeI 0x02 ra rb imm
  | .addiu ra rb imm => encodeI 0x03 ra rb imm
  | .sub ra rb rc => encodeR 0x04 ra rb rc
  | .subi ra rb imm => encodeI 0x05 ra rb imm
  | .subiu ra rb imm => encodeI 0x06 ra rb imm
  | .mul ra rb rc => encodeR 0x07 ra rb rc
  | .muli ra rb imm => encodeI 0x08 ra rb imm
  | .muliu ra rb imm => encodeI 0x09 ra rb imm
  | .div ra rb rc => encodeR 0x0A ra rb rc
  | .divi ra rb imm => encodeI 0x0B ra rb imm
  | .diviu ra rb imm => encodeI 0x0C ra rb imm
  | .mod ra rb rc => encodeR 0x0D ra rb rc
  | .modi ra rb imm => encodeI 0x0E ra rb imm
  | .modiu ra rb imm => encodeI 0x0F ra rb imm
  | .shl ra rb rc => encodeR 0x10 ra rb rc
  | .shli ra rb imm => encodeI 0x11 ra rb imm
  | .slr ra rb rc => encodeR 0x12 ra rb rc
  | .slri ra rb imm => encodeI 0x13 ra rb imm
  | .sar ra rb rc => encodeR 0x14 ra rb rc
  | .sari ra rb imm => encodeI 0x15 ra rb imm
  | .and ra rb rc => encodeR 0x16 ra rb rc
  | .or ra rb rc => encodeR 0x17 ra rb rc
  | .xor ra rb rc => encodeR 0x18 ra rb rc
  | .not ra rb => encodeR 0x19 ra rb 0
  | .eq ra rb rc => encodeR 0x1A ra rb rc
  | .ne ra rb rc => encodeR 0x1B ra rb rc
  | .lt ra rb rc => encodeR 0x1C ra rb rc
  | .ltu ra rb rc => encodeR 0x1D ra rb rc
  | .gt ra rb rc => encodeR 0x1E ra rb rc
  | .gtu ra rb rc => encodeR 0x1F ra rb rc
  | .le ra rb rc => encodeR 0x20 ra rb rc
  | .leu ra rb rc => encodeR 0x21 ra rb rc
  | .ge ra rb rc => encodeR 0x22 ra rb rc
  | .geu ra rb rc => encodeR 0x23 ra rb rc
  | .b imm => encodeI 0x24 0 0 imm
  | .be ra rb imm => encodeI 0x25 ra rb imm
  | .bne ra rb imm => encodeI 0x26 ra rb imm
  | .bnez ra imm => encodeI 0x26 ra 0 imm
  | .blt ra rb imm => encodeI 0x27 ra rb imm
  | .bgt ra rb imm => encodeI 0x28 ra rb imm
  | .j imm24 => encodeJ 0x29 imm24
  | .jr ra => encodeR 0x2A ra 0 0
  | .call ra => encodeR 0x2B ra 0 0
  | .ret => encodeR 0x2C 0 0 0
  | .lw ra rb imm => encodeI 0x2D ra rb imm
  | .lh ra rb imm => encodeI 0x2E ra rb imm
  | .lb ra rb imm => encodeI 0x2F ra rb imm
  | .lf fa ra imm => encodeI 0x30 fa ra imm
  | .li ra imm => encodeI 0x31 ra 0 imm
  | .liu ra imm => encodeI 0x32 ra 0 imm
  | .lih ra imm => encodeI 0x33 ra 0 imm
  | .sw ra rb imm => encodeI 0x34 ra rb imm
  | .sh ra rb imm => encodeI 0x35 ra rb imm
  | .sb ra rb imm => encodeI 0x36 ra rb imm
  | .sf ra fa imm => encodeI 0x37 ra fa imm
  | .popw ra => encodeR 0x38 ra 0 0
  | .poph ra => encodeR 0x39 ra 0 0
  | .popb ra => encodeR 0x3A ra 0 0
  | .popf fa => encodeR 0x3B fa 0 0
  | .popa ra => encodeR 0x3C ra 0 0
  | .pshw ra => encodeR 0x3D ra 0 0
  | .pshh ra => encodeR 0x3E ra 0 0
  | .pshb ra => encodeR 0x3F ra 0 0
  | .pshf fa => encodeR 0x40 fa 0 0
  | .psha ra => encodeR 0x41 ra 0 0
  | .addf fa fb fc => encodeF 0x33 fa fb fc
  | .subf fa fb fc => encodeF 0x34 fa fb fc
  | .mulf fa fb fc => encodeF 0x35 fa fb fc
  | .divf fa fb fc => encodeF 0x36 fa fb fc
  | .eqf fa fb fc => encodeF 0x37 fa fb fc
  | .nef fa fb fc => encodeF 0x38 fa fb fc
  | .ltf fa fb fc => encodeF 0x39 fa fb fc
  | .gtf fa fb fc => encodeF 0x3A fa fb fc
  | .lef fa fb fc => encodeF 0x3B fa fb fc
  | .gef fa fb fc => encodeF 0x3C fa fb fc
  | .pow fa fb fc => encodeF 0x3D fa fb fc
  | .fabs fa fb => encodeF 0x3E fa fb 0
  | .log fa fb => encodeF 0x3F fa fb 0
  | .logt fa fb => encodeF 0x40 fa fb 0
  | .exp fa fb => encodeF 0x41 fa fb 0
  | .flor fa fb => encodeF 0x42 fa fb 0
  | .ceil fa fb => encodeF 0x43 fa fb 0
  | .sin fa fb => encodeF 0x44 fa fb 0
  | .cos fa fb => encodeF 0x45 fa fb 0
  | .tan fa fb => encodeF 0x46 fa fb 0
  | .asin fa fb => encodeF 0x47 fa fb 0
  | .acos fa fb => encodeF 0x48 fa fb 0
  | .atan fa fb => encodeF 0x49 fa fb 0
  | .sqrt fa fb => encodeF 0x4A fa fb 0
  | .fmod fa fb fc => encodeF 0x4B fa fb fc
  | .cif fa ra => encodeF 0x4C fa ra 0
  | .cuf fa ra => encodeF 0x4D fa ra 0
  | .cfi ra fa => encodeF 0x4E ra fa 0
  | .cfu ra fa => encodeF 0x4F ra fa 0
  | .idle => encodeS 0 0 0
  | .cli rc => encodeS 1 1 rc
  | .sti => encodeS 1 2 0
  | .lusp rc => encodeS 2 1 rc
  | .susp rc => encodeS 2 2 rc
  | .iret => encodeS 3 0 0
  | .bin rc => encodeS 4 1 rc
  | .bout rc => encodeS 4 2 rc
  | .trap => encodeS 6 0 0
  | .stiv rc => encodeS 7 0 rc
  | .stpd rc => encodeS 7 1 rc
  | .stpg rc => encodeS 7 2 rc
  | .stto rc => encodeS 7 3 rc
  | .lvad rc => encodeS 7 4 rc
  | .halt => 0xFFFFFFFF#32
  | .lmsz ra => encodeM 1 ra 0 0
  | .mcpy ra rb rc => encodeM 2 ra rb rc
  | .mcmp ra rb rc => encodeM 3 ra rb rc
  | .mchr ra rb rc => encodeM 4 ra rb rc
  | .mset ra rb rc => encodeM 5 ra rb rc

end Sys2Proof
end

