-- ==== Sys2Proof/Config.lean ====
section
/-! DEFINITION. What an implementation fixes: the parameters of 00_scope.md R7 as plain data (State holds one
value of `Params`, which no instruction changes), and the free values, constants without a body. -/

namespace Sys2Proof

/-- `PC_BIAS` (R7, D6): what the source's symbol `PC` holds during an instruction, relative to its address. -/
inductive PcBias where
  | zero
  | four
  deriving DecidableEq, Repr

/-- `DIV_CONVENTION` (R7, D3): rounding of a signed quotient. -/
inductive DivConvention where
  | truncate
  | floor
  deriving DecidableEq, Repr

/-- `DIV_UNDEFINED` and `SHIFT_UNDEFINED` (R7, D4, D5): what an operation without a result does. -/
inductive UndefinedResult where
  | fault
  | anyValue
  deriving DecidableEq, Repr

/-- `NARROW_LOAD_EXT` and `LS_IMM_EXT` (R7, D11, D12). -/
inductive Extension where
  | sign
  | zero
  deriving DecidableEq, Repr

/-- `MISALIGNED_DATA` (R7, D13). -/
inductive MisalignedData where
  | fault
  | bytewise
  deriving DecidableEq, Repr

/-- `STACK_SEMANTICS` (R7, D15; 44_stack.md R240, R241). -/
inductive StackSemantics where
  | refuse
  | candidate
  deriving DecidableEq, Repr

/-- `IFETCH_COHERENT` (R7, D26; 20_memory.md R90). -/
inductive FetchCoherence where
  | coherent
  | faultOnStoreToCode
  deriving DecidableEq, Repr

/-- The model's own kind of parameter (log 4): what STI, or STPG and STTO, do. `refuse`: `raise Unmodelled`, the
default model's answer (R312, R321, R322). `record`: the effect the source gives them (`IENA := 1`, `PG := rc`,
`TO := rc`; R40). DESIGN CHOICE, unsafe: interrupts, the timer and translation stay unmodelled. -/
inductive ControlWrites where
  | refuse
  | record
  deriving DecidableEq, Repr

/-- The parameter `FP` (R7, D17; 45_float.md R260) as plain data: which record of functions on 64-bit patterns is in
force. `binary64`: the default contents, R261 to R264 and 46_conversion.md R300. `given k`: the record
`Config.fpRecord k`, every member of it uninterpreted. Log 18. -/
inductive FpSetting where
  | binary64
  | given (k : Nat)
  deriving DecidableEq, Repr

/-- A region the launch state declares to be code (R90): `size` bytes from `base` on. -/
structure CodeRegion where
  base : Nat
  size : Nat
  deriving DecidableEq, Repr

/-- The parameters the source leaves open (R7), less `MEMSZ`, `ENTRY` and `CONSOLE_IN`, which State holds as the
register MEMSZ, the pc and the console input; and the model's own two of `ControlWrites`. -/
structure Params where
  pcBias : PcBias
  divConvention : DivConvention
  divUndefined : UndefinedResult
  shiftUndefined : UndefinedResult
  narrowLoadExt : Extension
  lsImmExt : Extension
  misalignedData : MisalignedData
  stackSemantics : StackSemantics
  ifetchCoherent : FetchCoherence
  codeRegions : List CodeRegion
  fp : FpSetting
  stiWrite : ControlWrites
  pgToWrite : ControlWrites
  deriving DecidableEq, Repr

/-! Free values. A constant without a body: nothing can be proved of its value, so what is proved holds for every
value. The argument is the counter `State.draws` (a fresh value at each draw) or the operands. -/

/-- An unspecified 32-bit value: an undefined quotient, remainder or shift (R153, R154), and what MCPY and MSET
leave in the registers they name (R340). Log 13. -/
opaque Config.freeWord : Nat → Word

/-- Which NaN an operation makes is unspecified (45_float.md R261). Log 14. -/
opaque Config.freeNan : Nat → Long

/-- Byte `pos` of the infinite console input `k` (R7): uninterpreted, so what holds for every `k` holds for every
infinite sequence. Log 12. -/
opaque Config.consoleStream : (k pos : Nat) → Byte

/-! The elementary functions of R264: uninterpreted total functions of the operand patterns alone. Log 16. -/

/-- `FP.pow` (R264, R276). -/
opaque Config.fpPow : Long → Long → Long
/-- `FP.log` (R264, R278). -/
opaque Config.fpLog : Long → Long
/-- `FP.log10` (R264, R279). -/
opaque Config.fpLog10 : Long → Long
/-- `FP.exp` (R264, R280). -/
opaque Config.fpExp : Long → Long
/-- `FP.sin` (R264, R283). -/
opaque Config.fpSin : Long → Long
/-- `FP.cos` (R264, R284). -/
opaque Config.fpCos : Long → Long
/-- `FP.tan` (R264, R285). -/
opaque Config.fpTan : Long → Long
/-- `FP.asin` (R264, R286). -/
opaque Config.fpAsin : Long → Long
/-- `FP.acos` (R264, R287). -/
opaque Config.fpAcos : Long → Long
/-- `FP.atan` (R264, R288). -/
opaque Config.fpAtan : Long → Long

/-- The configuration record `FP` (R7; 45_float.md R260 to R264, 46_conversion.md R300): functions on 64-bit
patterns, which the instruction rules call by name. A result `none` of the basic operations is a NaN, which one being
unspecified (R261); of `toS32`, no result (R300). `FP.of_s32` and `FP.of_u32` are no members: they are exact whatever
record is chosen (R300). -/
structure FpRecord where
  add : Long → Long → Option Long
  sub : Long → Long → Option Long
  mul : Long → Long → Option Long
  div : Long → Long → Option Long
  sqrt : Long → Option Long
  eq : Long → Long → Bool
  ne : Long → Long → Bool
  lt : Long → Long → Bool
  gt : Long → Long → Bool
  le : Long → Long → Bool
  ge : Long → Long → Bool
  fabs : Long → Long
  floor : Long → Option Long
  ceil : Long → Option Long
  fmod : Long → Long → Option Long
  pow : Long → Long → Long
  log : Long → Long
  log10 : Long → Long
  exp : Long → Long
  sin : Long → Long
  cos : Long → Long
  tan : Long → Long
  asin : Long → Long
  acos : Long → Long
  atan : Long → Long
  toS32 : Long → Option Word
  deriving Inhabited

/-- The records of `FpSetting.given`: every member uninterpreted (R260), so what holds for every `k` holds for every
record, and a claim about one record states it as a hypothesis on `Config.fpRecord k`. Log 18. -/
opaque Config.fpRecord : Nat → FpRecord

end Sys2Proof
end

