-- ==== Sys2Proof/Machine/Operands.lean ====
section
/-! DEFINITION. Operand forms: the readings of a word and the extensions of an immediate (00_scope.md R9, R10;
30_encoding.md R108, R109), and the integer results the arithmetic family shares (41_arith_logic.md R151 to R154). -/

namespace Sys2Proof.Machine

/-- `wrap32(n)`: the pattern whose unsigned reading is `n mod 2^32` (R9). `s(v)` is `v.toInt`, `u(v)` is `v.toNat`. -/
def wrap32 (n : Int) : Word :=
  BitVec.ofInt 32 n

/-- `sext_32` of a narrower value (R10). -/
def sext32 (n : Nat) (v : BitVec n) : Word :=
  wrap32 v.toInt

/-- `zext_32` of a narrower value (R10). -/
def zext32 (n : Nat) (v : BitVec n) : Word :=
  wrap32 v.toNat

/-- Extension by a parameter: NARROW_LOAD_EXT (R222) or LS_IMM_EXT (R220). -/
def extend (e : Extension) (n : Nat) (v : BitVec n) : Word :=
  match e with
  | .sign => sext32 n v
  | .zero => zext32 n v

/-- `offset(imm)`: the sign-extended immediate times 4 (R108). -/
def branchOffset (imm : Half) : Word :=
  wrap32 ((sext32 16 imm).toInt * 4)

/-- `imm << 16`: `imm ++ 0x0000` (R109, R227). -/
def highHalf (imm : Half) : Word :=
  imm ++ 0#16

/-- The value of PC_BIAS (R7). -/
def biasWord : PcBias → Word
  | .zero => 0#32
  | .four => 4#32

/-- `_ + _`: the exact sum, wrapped (R151). -/
def addWrap (a b : Int) : Word := wrap32 (a + b)

/-- `_ - _`: the exact difference, wrapped (R151). -/
def subWrap (a b : Int) : Word := wrap32 (a - b)

/-- `_ * _`: the low 32 bits of the exact product (R151). -/
def mulWrap (a b : Int) : Word := wrap32 (a * b)

/-- The address `k` bytes on, wrapped (R13). -/
def wrapAddr (a : Word) (k : Nat) : Word :=
  a + BitVec.ofNat 32 k

end Sys2Proof.Machine
end

