-- ==== Sys2Proof/Machine/Launch.lean ====
section
/-! DEFINITION. The launch values the spec asks the modeller to give (70_reset_and_hazards.md R450, 00_scope.md R7):
the parameters, `ENTRY` and `MEMSZ`. -/

namespace Sys2Proof.Machine

/-- Every parameter at the default of R7, with STI, STPG and STTO refused: the default model, the one the spec's
test vectors assume. -/
def defaultParams : Params where
  pcBias := .zero
  divConvention := .truncate
  divUndefined := .fault
  shiftUndefined := .fault
  narrowLoadExt := .sign
  lsImmExt := .sign
  misalignedData := .fault
  stackSemantics := .refuse
  ifetchCoherent := .coherent
  codeRegions := []
  fp := .binary64
  stiWrite := .refuse
  pgToWrite := .refuse

/-- The parameters at launch: R7's defaults but where a default stops an instruction and the spec offers a setting that
gives it an effect (R7; for STI, R312: "a model may record it"); there the launch takes the effect. STPG and STTO are
refused, as R321 and R322 say. DESIGN CHOICE, unsafe (logs 1 to 4, 7). -/
def launchParams : Params :=
  { defaultParams with
    divUndefined := .anyValue
    shiftUndefined := .anyValue
    misalignedData := .bytewise
    stackSemantics := .candidate
    stiWrite := .record }

/-- `ENTRY` (R450, R451: a multiple of 4 below MEMSZ - 3). R7 gives no default. DESIGN CHOICE, unsafe (log 8). -/
def launchEntry : Word := 0x00001000#32

/-- `MEMSZ` (R451: a multiple of 8, at most 2^32). R7 gives no default. DESIGN CHOICE, unsafe (log 8). -/
def launchMemsz : Nat := 0x00010000

end Sys2Proof.Machine
end

