-- ==== Sys2Proof/Machine/State.lean ====
section
/-! DEFINITION. The state the spec gives the machine (10_state.md), why a step can stop (60_exceptions.md R405), and
the state after reset (10_state.md R55, 70_reset_and_hazards.md R450, R451). -/

namespace Sys2Proof.Machine

/-- Memory: (address, byte) pairs in one canonical form, addresses strictly rising and no byte equal to what an
unlisted address reads as (`Memory.wf`). -/
abbrev Memory := List Host.Cell

/-- What follows the listed bytes of `CONSOLE_IN` (R7: a finite or infinite sequence): nothing, or the infinite
sequence `Config.consoleStream k` from its byte `pos` on. Log 12. -/
inductive ConsoleTail where
  | ends
  | endless (k pos : Nat)
  deriving DecidableEq, Repr

/-- `CONSOLE_IN` (R7, D22; 10_state.md R51): the bytes not yet read, the listed ones first. -/
structure ConsoleIn where
  bytes : List Byte
  tail : ConsoleTail
  deriving DecidableEq, Repr

/-- The kind of an access that fails (R405). -/
inductive Access where
  | load
  | store
  | fetch
  | stack
  deriving DecidableEq, Repr

/-- The kinds of `ArithUndefined` (R405). -/
inductive ArithKind where
  | divByZero
  | divOverflow
  | shiftRange
  deriving DecidableEq, Repr

/-- The outcomes of R405 whose treatment is `fault`, and the end of a run. -/
inductive Fault where
  /-- `step`, on a word that matches no row (R116). Safe: the spec gives it no meaning. -/
  | illegalInstruction (w : Word)
  /-- The divisions, remainders and shifts, under the setting `fault` of DIV_UNDEFINED and SHIFT_UNDEFINED (R153,
  R154). Safe. -/
  | arithUndefined (k : ArithKind)
  /-- Any access that touches a byte at or beyond MEMSZ (R80), or a store to declared code under
  `faultOnStoreToCode` (R90); `addr` the first byte of the access, for block instructions the offending byte. Safe. -/
  | accessFault (addr : Word) (n : Nat) (k : Access)
  /-- A fetch from a pc that is no multiple of 4 (R77), a misaligned data access under MISALIGNED_DATA = fault (R76),
  a stack slot that is no multiple of 8 (R241). Safe. -/
  | misaligned (addr : Word) (n : Nat) (k : Access)
  /-- CFI and CFU, on a NaN, an infinity or a value out of range (R300). Safe. -/
  | fpUndefined
  /-- `step`, when `halted` is true: the run has ended with outcome Halted and there is no next step (R435). Safe:
  the normal end of a run, not an error. -/
  | halted
  deriving DecidableEq, Repr

/-- The outcomes of R405 whose treatment is `refuse` (`Unmodelled`), each under a name that says why. -/
inductive Refusal where
  /-- `exec`, for an instruction whose meaning is not written yet: none is left. Safe. -/
  | notModelled (mnemonic : String)
  /-- CALL: the source marks its Meaning with a question mark and says of no place for a return address (R209). Safe. -/
  | callUndecided
  /-- RET: the source's Meaning is a lone question mark (R210). Safe. -/
  | retUndecided
  /-- A Stack instruction without a meaning: all ten under STACK_SEMANTICS = refuse (R240), the H, B and A forms
  under `candidate` too (R241). Safe. -/
  | stackMeaningEmpty (mnemonic : String)
  /-- IDLE: neither the waiting condition nor the interrupt entry is given (R310). Safe. -/
  | idleNotDescribed
  /-- IRET: what it restores and from where is not given (R315). Safe. -/
  | iretNotDescribed
  /-- TRAP: no entry sequence, cause or saved state is given (R318). Safe. -/
  | trapNotDescribed
  /-- STI, STPG and STTO where their setting of ControlWrites is `refuse` (R312, R321, R322). Safe. -/
  | controlWriteRefused (mnemonic : String)
  /-- MCMP: the Meaning names no destination for the result (R343). Safe. -/
  | mcmpNoDestination
  /-- MCHR: the Meaning names no destination for the result (R344). Safe. -/
  | mchrNoDestination
  /-- MCPY on ranges that share a byte (R342). Safe. -/
  | mcpyOverlap
  /-- `step`, when PG is not 0: every fetch would go through a translation the source does not describe (R45, R86,
  R321). Safe. -/
  | translationNotDescribed
  deriving DecidableEq, Repr

/-- The machine's state: 10_state.md, with the parameters of 00_scope.md R7 and the model's own counter of free
values. Registers are read and written through `State.readX` and its fellows in Machine/Ops.lean. -/
structure State where
  /-- R0 to LR (R30); index 0 reads as zero (R32). -/
  x : Vector Word 16
  /-- F0 to F15 (R35). -/
  f : Vector Long 16
  /-- The byte address of the instruction to execute (R37, R12). -/
  pc : Word
  /-- IENA, one bit (R41). -/
  iena : BitVec 1
  /-- USP (R42). -/
  usp : Word
  /-- IVEC (R43). -/
  ivec : Word
  /-- PDIR (R44). -/
  pdir : Word
  /-- PG (R45). -/
  pg : Word
  /-- TO (R46). -/
  tout : Word
  /-- VADR (R47). -/
  vadr : Word
  /-- MEMSZ, the number of bytes of memory (R48). -/
  memsz : Nat
  /-- Memory (R50, R70). -/
  mem : Memory
  /-- CONSOLE_IN, the bytes not yet read (R51). -/
  consoleIn : ConsoleIn
  /-- console_out, the bytes written so far (R51). -/
  consoleOut : List Byte
  /-- Set by HALT (R52). -/
  halted : Bool
  /-- The parameters of R7 and the two of ControlWrites. No instruction changes them. -/
  params : Params
  /-- The model's own: how many free values have been drawn (log 15). -/
  draws : Nat
  deriving DecidableEq, Repr

/-- The launch state (R55, R450, R451). The registers without a launch value are zero: DESIGN CHOICE, unsafe (logs 9,
10). Memory lists nothing, the console input is empty (logs 11, 12), no free value has been drawn (log 15). -/
def State.reset : State where
  x := Vector.replicate 16 0#32
  f := Vector.replicate 16 0#64
  pc := launchEntry
  iena := 0#1
  usp := 0#32
  ivec := 0#32
  pdir := 0#32
  pg := 0#32
  tout := 0#32
  vadr := 0#32
  memsz := launchMemsz
  mem := []
  consoleIn := ⟨[], .ends⟩
  consoleOut := []
  halted := false
  params := launchParams
  draws := 0

end Sys2Proof.Machine
end

