-- ==== Sys2Proof/Machine/Flags.lean ====
section
/-! DEFINITION. The machine has no condition code or flag (10_state.md R38): a comparison writes a truth value to a
register. Here are the truth values and the integer relations (41_arith_logic.md R152), and the operations whose
result can be undefined (R153, R154). -/

namespace Sys2Proof.Machine

/-- `if c then 1 else 0` in an indexed register (00_scope.md R16). -/
def truthWord (c : Bool) : Word :=
  if c then 0x00000001#32 else 0x00000000#32

/-- `if c then 1 else 0` in a floating-point register: 1.0 or +0.0 (45_float.md R262). -/
def truthLong (c : Bool) : Long :=
  if c then 0x3FF0000000000000#64 else 0x0000000000000000#64

/-- `_ < _` on the signed readings (R152). -/
def ltSigned (a b : Word) : Bool := decide (a.toInt < b.toInt)

/-- `_ <= _` on the signed readings (R152). -/
def leSigned (a b : Word) : Bool := decide (a.toInt ≤ b.toInt)

/-- `unsigned(_) < unsigned(_)` (R152). -/
def ltUnsigned (a b : Word) : Bool := decide (a.toNat < b.toNat)

/-- `unsigned(_) <= unsigned(_)` (R152). -/
def leUnsigned (a b : Word) : Bool := decide (a.toNat ≤ b.toNat)

/-- The quotient of two signed integers by DIV_CONVENTION (R153). -/
def quotient : DivConvention → Int → Int → Int
  | .truncate, a, b => a.tdiv b
  | .floor, a, b => a.fdiv b

/-- `sdiv` and `smod` share their undefined cases (R153): a zero divisor, and -2^31 by -1. -/
def divUndefinedKind (a b : Word) : Option ArithKind :=
  if b = 0#32 then some .divByZero
  else if a.toInt = -2 ^ 31 ∧ b.toInt = -1 then some .divOverflow
  else none

/-- `sdiv(a, b)` (R153). -/
def sdiv (c : DivConvention) (a b : Word) : Except ArithKind Word :=
  match divUndefinedKind a b with
  | some k => .error k
  | none => .ok (wrap32 (quotient c a.toInt b.toInt))

/-- `smod(a, b)`: the dividend less the divisor times the quotient (R153). -/
def smod (c : DivConvention) (a b : Word) : Except ArithKind Word :=
  match divUndefinedKind a b with
  | some k => .error k
  | none => .ok (wrap32 (a.toInt - b.toInt * quotient c a.toInt b.toInt))

/-- A shift by an amount in the closed range 0 to 32; outside it there is no result (R154). -/
def shiftInRange (n : Int) (result : Nat → Word) : Except ArithKind Word :=
  if 0 ≤ n ∧ n ≤ 32 then .ok (result n.toNat) else .error .shiftRange

/-- `shl(a, n)` (R154). -/
def shl (a : Word) (n : Int) : Except ArithKind Word :=
  shiftInRange n fun k => wrap32 (a.toNat * 2 ^ k : Nat)

/-- `lsr(a, n)` (R154). -/
def lsr (a : Word) (n : Int) : Except ArithKind Word :=
  shiftInRange n fun k => wrap32 (a.toNat / 2 ^ k : Nat)

/-- `asr(a, n)`: the floor of the signed quotient (R154). -/
def asr (a : Word) (n : Int) : Except ArithKind Word :=
  shiftInRange n fun k => wrap32 (a.toInt.fdiv (2 ^ k))

end Sys2Proof.Machine
end

