-- ==== Sys2Proof/Machine/FloatArith.lean ====
section
/-! DEFINITION. The arithmetic of binary64 patterns (45_float.md R260 to R263, 46_conversion.md R300), exact: a finite
pattern is an integer multiple of 2^-1074, an operation computes its exact result as a fraction, and one function,
`FP.round`, rounds a fraction to nearest, ties to even. A result `none` is a NaN, which one being unspecified (R261). -/

namespace Sys2Proof.Machine

/-- Bit 63, the sign (R260). -/
def FP.sign (p : Long) : Bool := decide (2 ^ 63 ≤ p.toNat)

/-- Bits 62..0 as a number: it orders the magnitudes. -/
def FP.magBits (p : Long) : Nat := p.toNat % 2 ^ 63

/-- Bits 62..52, the biased exponent (R260). -/
def FP.expo (p : Long) : Nat := FP.magBits p / 2 ^ 52

/-- Bits 51..0, the fraction (R260). -/
def FP.frac (p : Long) : Nat := p.toNat % 2 ^ 52

/-- Exponent 2047 and a non-zero fraction (R260). -/
def FP.isNan (p : Long) : Bool := decide (FP.expo p = 2047 ∧ FP.frac p ≠ 0)

/-- Exponent 2047 and fraction zero (R260). -/
def FP.isInf (p : Long) : Bool := decide (FP.expo p = 2047 ∧ FP.frac p = 0)

/-- Exponent and fraction zero (R260). -/
def FP.isZero (p : Long) : Bool := decide (FP.magBits p = 0)

/-- A zero, a subnormal or a normal number (R260). -/
def FP.isFinite (p : Long) : Bool := decide (FP.expo p < 2047)

/-- The number of units 2^-1074 in 1. -/
def FP.unitsPerOne : Nat := 2 ^ 1074

/-- The magnitude of a finite pattern in units of 2^-1074 (R260): the fraction of a subnormal, 2^52 + fraction scaled
by the exponent of a normal number. An infinity's exceeds every finite one. -/
def FP.mag (p : Long) : Nat :=
  if FP.expo p = 0 then FP.frac p else (2 ^ 52 + FP.frac p) * 2 ^ (FP.expo p - 1)

/-- The value of a finite pattern in units of 2^-1074; both zeros have the value 0. -/
def FP.value (p : Long) : Int :=
  if FP.sign p then -(FP.mag p : Int) else (FP.mag p : Int)

/-- The pattern of a sign and the bits below it. -/
def FP.pack (neg : Bool) (mag : Nat) : Long :=
  BitVec.ofNat 64 ((if neg then 2 ^ 63 else 0) + mag)

/-- The bits of an infinity below its sign. -/
def FP.infBits : Nat := 2047 * 2 ^ 52

/-- The infinity of a sign (R260). -/
def FP.inf (neg : Bool) : Long := FP.pack neg FP.infBits

/-- The zero of a sign (R260). -/
def FP.zero (neg : Bool) : Long := FP.pack neg 0

/-- How many low bits the quotient has beyond the 53 of a significand. -/
def FP.excess (q : Nat) : Nat := Nat.log2 q - 52

/-- `num / den` to the nearest integer, ties to even. -/
def FP.nearest (num den : Nat) : Nat :=
  let q := num / den
  let r := num % den
  if den < 2 * r ∨ (2 * r = den ∧ q % 2 = 1) then q + 1 else q

/-- The magnitude `num / den`, in units of 2^-1074, rounded to nearest with ties to even (R261), as the bits below the
sign. With `k` the excess, the rounded significand `q` is at most 2^53 and the bits are `k * 2^52 + q`: below 2^52 a
subnormal, from 2^52 on a normal number of biased exponent `k + 1`, and a carry to 2^53 moves to the next exponent by
itself. A rounded magnitude of 2^1024 or more is the infinity (R261). -/
def FP.roundBits (num den : Nat) : Nat :=
  let k := FP.excess (num / den)
  min (k * 2 ^ 52 + FP.nearest num (den * 2 ^ k)) FP.infBits

/-- Rounding of a signed magnitude (R261). -/
def FP.round (neg : Bool) (num den : Nat) : Long :=
  FP.pack neg (FP.roundBits num den)

/-- `fabs`: bit 63 cleared, for every pattern (R263, R277). -/
def FP.fabs (p : Long) : Long := p &&& 0x7FFFFFFFFFFFFFFF#64

/-- Bit 63 inverted. -/
def FP.neg (p : Long) : Long := p ^^^ 0x8000000000000000#64

/-- A NaN pattern from a free 64-bit value: a NaN is taken as it is, so every NaN pattern can result (R261). -/
def FP.anyNan (v : Long) : Long :=
  if FP.isNan v then v else v ||| 0x7FF8000000000000#64

/-- `FP.add` (R261). -/
def FP.add (a b : Long) : Option Long :=
  if FP.isNan a || FP.isNan b then none
  else if FP.isInf a then
    if FP.isInf b && (FP.sign a != FP.sign b) then none else some a
  else if FP.isInf b then some b
  else
    let v := FP.value a + FP.value b
    if v = 0 then some (FP.zero (FP.sign a && FP.sign b))
    else some (FP.round (decide (v < 0)) v.natAbs 1)

/-- `FP.sub` (R261): the first operand less the second. -/
def FP.sub (a b : Long) : Option Long :=
  if FP.isNan b then none else FP.add a (FP.neg b)

/-- `FP.mul` (R261). -/
def FP.mul (a b : Long) : Option Long :=
  let neg := FP.sign a != FP.sign b
  if FP.isNan a || FP.isNan b then none
  else if FP.isInf a || FP.isInf b then
    if FP.isZero a || FP.isZero b then none else some (FP.inf neg)
  else some (FP.round neg (FP.mag a * FP.mag b) FP.unitsPerOne)

/-- `FP.div` (R261). A finite value over an infinity is a zero, and a zero over a finite value a zero, of the
exclusive-or sign (PRESUMED, IEEE 754, log 16). -/
def FP.div (a b : Long) : Option Long :=
  let neg := FP.sign a != FP.sign b
  if FP.isNan a || FP.isNan b then none
  else if FP.isInf a then
    if FP.isInf b then none else some (FP.inf neg)
  else if FP.isInf b then some (FP.zero neg)
  else if FP.isZero b then
    if FP.isZero a then none else some (FP.inf neg)
  else some (FP.round neg (FP.mag a * FP.unitsPerOne) (FP.mag b))

/-- The integer square root by its binary digits: `s` is the part found, `k` how many digits are left. -/
def FP.sqrtDigits (n : Nat) : Nat → Nat → Nat
  | 0, s => s
  | k + 1, s =>
    if (s + 2 ^ k) * (s + 2 ^ k) ≤ n then FP.sqrtDigits n k (s + 2 ^ k) else FP.sqrtDigits n k s

/-- The integer square root: the greatest `s` with `s * s ≤ n`. -/
def FP.isqrt (n : Nat) : Nat := FP.sqrtDigits n (Nat.log2 n / 2 + 1) 0

/-- `FP.sqrt` (R261). In units of 2^-1074 the root of `m` units is the root of `m * 2^1074`, a number of more than 500
binary digits; its integer part and one bit that tells whether anything is left over round as the exact root does. -/
def FP.sqrt (a : Long) : Option Long :=
  if FP.isNan a then none
  else if FP.isZero a then some a
  else if FP.sign a then none
  else if FP.isInf a then some a
  else
    let n := FP.mag a * FP.unitsPerOne
    let s := FP.isqrt n
    some (FP.round false (2 * s + (if s * s = n then 0 else 1)) 2)

/-- A whole number of ones, with a sign: exact for the numbers `floor`, `ceil` and the conversions give. -/
def FP.ofWhole (neg : Bool) (n : Nat) : Long := FP.round neg (n * FP.unitsPerOne) 1

/-- The whole part of the magnitude. -/
def FP.wholeDown (p : Long) : Nat := FP.mag p / FP.unitsPerOne

/-- The least whole number not below the magnitude. -/
def FP.wholeUp (p : Long) : Nat := (FP.mag p + (FP.unitsPerOne - 1)) / FP.unitsPerOne

/-- `FP.floor` (R263). -/
def FP.floor (a : Long) : Option Long :=
  if FP.isNan a then none
  else if FP.isInf a then some a
  else some (FP.ofWhole (FP.sign a) (if FP.sign a then FP.wholeUp a else FP.wholeDown a))

/-- `FP.ceil` (R263). -/
def FP.ceil (a : Long) : Option Long :=
  if FP.isNan a then none
  else if FP.isInf a then some a
  else some (FP.ofWhole (FP.sign a) (if FP.sign a then FP.wholeDown a else FP.wholeUp a))

/-- `FP.fmod` (R263): the remainder of the magnitudes, with the sign of the first operand. -/
def FP.fmod (a b : Long) : Option Long :=
  if FP.isNan a || FP.isNan b then none
  else if FP.isInf a then none
  else if FP.isZero b then none
  else if FP.isInf b then some a
  else some (FP.round (FP.sign a) (FP.mag a % FP.mag b) 1)

/-- Neither operand is a NaN. -/
def FP.ordered (a b : Long) : Bool := !FP.isNan a && !FP.isNan b

/-- `FP.eq` (R262): false when either operand is a NaN; +0.0 and -0.0 are equal. -/
def FP.eq (a b : Long) : Bool := FP.ordered a b && decide (FP.value a = FP.value b)

/-- `FP.ne` (R262): the complement of `FP.eq`. -/
def FP.ne (a b : Long) : Bool := !FP.eq a b

/-- `FP.lt` (R262); an infinity's value lies beyond every finite one. -/
def FP.lt (a b : Long) : Bool := FP.ordered a b && decide (FP.value a < FP.value b)

/-- `FP.gt` (R262). -/
def FP.gt (a b : Long) : Bool := FP.lt b a

/-- `FP.le` (R262). -/
def FP.le (a b : Long) : Bool := FP.ordered a b && decide (FP.value a ≤ FP.value b)

/-- `FP.ge` (R262). -/
def FP.ge (a b : Long) : Bool := FP.le b a

/-- `FP.of_s32` (R300): exact. -/
def FP.ofS32 (v : Word) : Long := FP.ofWhole (decide (v.toInt < 0)) v.toInt.natAbs

/-- `FP.of_u32` (R300): exact. -/
def FP.ofU32 (v : Word) : Long := FP.ofWhole false v.toNat

/-- `trunc(v)` of a finite pattern (R300): the fraction discarded. -/
def FP.trunc (p : Long) : Int :=
  if FP.sign p then -(FP.wholeDown p : Int) else (FP.wholeDown p : Int)

/-- `FP.to_s32` (R300): none for a NaN, an infinity or a truncated value outside -2^31 to 2^31 - 1. -/
def FP.toS32 (p : Long) : Option Word :=
  if FP.isFinite p && decide (-2 ^ 31 ≤ FP.trunc p ∧ FP.trunc p ≤ 2 ^ 31 - 1) then
    some (BitVec.ofInt 32 (FP.trunc p))
  else none

/-- The default contents of the record `FP`: R261 to R264 and R300. -/
def FP.binary64 : FpRecord where
  add := FP.add
  sub := FP.sub
  mul := FP.mul
  div := FP.div
  sqrt := FP.sqrt
  eq := FP.eq
  ne := FP.ne
  lt := FP.lt
  gt := FP.gt
  le := FP.le
  ge := FP.ge
  fabs := FP.fabs
  floor := FP.floor
  ceil := FP.ceil
  fmod := FP.fmod
  pow := Config.fpPow
  log := Config.fpLog
  log10 := Config.fpLog10
  exp := Config.fpExp
  sin := Config.fpSin
  cos := Config.fpCos
  tan := Config.fpTan
  asin := Config.fpAsin
  acos := Config.fpAcos
  atan := Config.fpAtan
  toS32 := FP.toS32

/-- The record a setting of the parameter `FP` names (R7, R260). -/
def FP.ofSetting : FpSetting → FpRecord
  | .binary64 => FP.binary64
  | .given k => Config.fpRecord k

end Sys2Proof.Machine
end

