-- ==== Sys2Proof/Machine/Ops.lean ====
section
/-! DEFINITION. The named operations: registers, memory and its checks, the console, free values, the end of an
instruction (`next`, a branch), and `raise`, the one way an instruction stops. -/

namespace Sys2Proof.Machine

/-- What an instruction answers. -/
abbrev Out := Host.Outcome State Fault Refusal

/-! ## Raising: the whole of the machine's exception taking

The source has no exception mechanism (60_exceptions.md R400, R401, R412): no pc or status is saved, no handler
runs, IVEC is not consulted, and IRET has nothing to restore. A `raise` ends the run with the state as it was before
the instruction (00_scope.md R14, R405). -/

/-- `raise` of an outcome whose treatment is fault (R405). -/
def raise (r : Fault) : Out := .fault r

/-- `raise Unmodelled(..)`, whose treatment is refuse (R405). -/
def refuse (r : Refusal) : Out := .refused r

/-! ## Registers -/

/-- `x[i]` (R11): R0 reads as zero (R32). -/
def State.readX (s : State) (i : Reg) : Word :=
  if i = 0 then 0#32 else s.x[i.val]

/-- `x[i] <- v` (R11): a write to R0 is discarded (R32). -/
def State.setX (s : State) (i : Reg) (v : Word) : State :=
  if i = 0 then s else { s with x := s.x.set i.val v }

/-- `f[i]` (R11): no floating-point register is hard-wired (R35). -/
def State.readF (s : State) (i : Reg) : Long :=
  s.f[i.val]

/-- `f[i] <- v` (R11). -/
def State.setF (s : State) (i : Reg) (v : Long) : State :=
  { s with f := s.f.set i.val v }

/-- `pc <- t` (R12). -/
def State.setPc (s : State) (t : Word) : State := { s with pc := t }

/-- `IENA <- b` (R41). -/
def State.setIena (s : State) (b : BitVec 1) : State := { s with iena := b }

/-- `USP <- v` (R42). -/
def State.setUsp (s : State) (v : Word) : State := { s with usp := v }

/-- `IVEC <- v` (R43). -/
def State.setIvec (s : State) (v : Word) : State := { s with ivec := v }

/-- `PDIR <- v` (R44). -/
def State.setPdir (s : State) (v : Word) : State := { s with pdir := v }

/-- `PG <- v` (R45). -/
def State.setPg (s : State) (v : Word) : State := { s with pg := v }

/-- `TO <- v` (R46). -/
def State.setTout (s : State) (v : Word) : State := { s with tout := v }

/-- The new contents of memory. -/
def State.setMem (s : State) (m : Memory) : State := { s with mem := m }

/-- What is left of CONSOLE_IN (R51). -/
def State.setConsoleIn (s : State) (c : ConsoleIn) : State := { s with consoleIn := c }

/-- The console output so far (R51). -/
def State.setConsoleOut (s : State) (bs : List Byte) : State := { s with consoleOut := bs }

/-- `halted <- true` (R52, R324). -/
def State.setHalted (s : State) : State := { s with halted := true }

/-- One more free value has been drawn (log 15). -/
def State.bumpDraws (s : State) : State := { s with draws := s.draws + 1 }

/-- The record `FP` in force (R260). -/
def State.fp (s : State) : FpRecord := FP.ofSetting s.params.fp

/-- The first byte of CONSOLE_IN and what is left after it; none where it is empty (R51, R316). -/
def ConsoleIn.take : ConsoleIn → Option (Byte × ConsoleIn)
  | ⟨b :: bs, c⟩ => some (b, ⟨bs, c⟩)
  | ⟨[], .ends⟩ => none
  | ⟨[], .endless k pos⟩ => some (Config.consoleStream k pos, ⟨[], .endless k (pos + 1)⟩)

/-! ## The end of an instruction -/

/-- `next`: `pc <- wrap32(pc + 4)` (R12, R39). -/
def State.advance (s : State) : State :=
  s.setPc (s.pc + 4#32)

/-- `next` as an answer. -/
def State.toNext (s : State) : Out := .next s.advance

/-- `x[ra] <- v`; `next`. -/
def State.writeX (s : State) (ra : Reg) (v : Word) : Out :=
  (s.setX ra v).toNext

/-- `f[fa] <- v`; `next`. -/
def State.writeF (s : State) (fa : Reg) (v : Long) : Out :=
  (s.setF fa v).toNext

/-- `PCsrc = wrap32(pc + PC_BIAS)` (R12, R200). -/
def State.pcSrc (s : State) : Word :=
  s.pc + biasWord s.params.pcBias

/-- A PC-relative branch (R200): taken to `wrap32(PCsrc + offset(imm))`, else `next`. -/
def State.branch (s : State) (taken : Bool) (imm : Half) : Out :=
  if taken then .next (s.setPc (s.pcSrc + branchOffset imm)) else s.toNext

/-! ## Free values -/

/-- `x[r] <- unspecified`: a fresh free word, R0 excepted (R340, R153, R154). -/
def State.drawX (s : State) (r : Reg) : State :=
  (s.setX r (Config.freeWord s.draws)).bumpDraws

/-- An operation of the arithmetic family whose result can be undefined: the defined result is written; without one,
the setting decides between `raise ArithUndefined` and an unspecified value (R153, R154). -/
def State.writeArith (s : State) (u : UndefinedResult) (ra : Reg) : Except ArithKind Word → Out
  | .ok v => s.writeX ra v
  | .error k =>
    match u with
    | .fault => raise (.arithUndefined k)
    | .anyValue => (s.drawX ra).toNext

/-! ## Memory

`Mem[a]` is one byte (R13); addresses are keys below 2^32. -/

/-- What a byte of memory that is not listed reads as. The source gives none (R55). DESIGN CHOICE, unsafe (log 11). -/
def unwrittenByte : Byte := 0x00#8

/-- `Mem[a]` (R13). -/
def Memory.read : Memory → Nat → Byte
  | [], _ => unwrittenByte
  | (b, v) :: m, a => if a = b then v else Memory.read m a

/-- `Mem[a] <- v`, keeping the canonical form. -/
def Memory.write : Memory → Nat → Byte → Memory
  | [], a, v => if v = unwrittenByte then [] else [(a, v)]
  | (b, u) :: m, a, v =>
    if a < b then (if v = unwrittenByte then (b, u) :: m else (a, v) :: (b, u) :: m)
    else if a = b then (if v = unwrittenByte then m else (b, v) :: m)
    else (b, u) :: Memory.write m a v

/-- The canonical form: addresses strictly rising, no byte listed that equals what an unlisted address reads as. -/
abbrev Memory.wf (m : Memory) : Prop :=
  m.Pairwise (fun c d => c.1 < d.1) ∧ ∀ c ∈ m, c.2 ≠ unwrittenByte

/-- The bytes at `a`, `wrap32(a + 1)`, … (R13). -/
def Memory.readBytes (m : Memory) (a : Word) : Nat → List Byte
  | 0 => []
  | n + 1 => Memory.read m a.toNat :: Memory.readBytes m (a + 1#32) n

/-- `Mem[wrap32(a + k)] <- bytes[k]` for each `k` (R13). -/
def Memory.writeBytes (m : Memory) (a : Word) : List Byte → Memory
  | [] => m
  | b :: bs => Memory.writeBytes (Memory.write m a.toNat b) (a + 1#32) bs

/-- The byte address lies in a region declared to be code (R90). -/
def State.isCode (s : State) (a : Word) : Bool :=
  s.params.codeRegions.any fun r => decide (r.base ≤ a.toNat ∧ a.toNat < r.base + r.size)

/-- The byte address may be stored to: inside memory (R80), and not declared code under `faultOnStoreToCode`
(R90). -/
def State.mayStore (s : State) (a : Word) : Bool :=
  decide (a.toNat < s.memsz) &&
    !(decide (s.params.ifetchCoherent = .faultOnStoreToCode) && s.isCode a)

/-- The byte address may be read or fetched: inside memory (R80). -/
def State.mayRead (s : State) (a : Word) : Bool :=
  decide (a.toNat < s.memsz)

/-- The first of the `n` addresses from `a` on, wrapped, that is not allowed. -/
def firstBad (ok : Word → Bool) (a : Word) : Nat → Option Word
  | 0 => none
  | n + 1 => if ok a then firstBad ok (a + 1#32) n else some a

/-- The alignment check of a data access (R76): natural alignment unless MISALIGNED_DATA = bytewise. -/
def State.alignedData (s : State) (a : Word) (n : Nat) : Bool :=
  decide (s.params.misalignedData = .bytewise) || decide (a.toNat % n = 0)

/-- `MemRead(addr, n)` for a data access (R13): alignment (R76), then range (R80), then the value, little endian. -/
def State.load (s : State) (a : Word) (n : Nat) : Except Fault Nat :=
  if s.alignedData a n then
    match firstBad s.mayRead a n with
    | none => .ok (leValue (Memory.readBytes s.mem a n))
    | some _ => .error (.accessFault a n .load)
  else .error (.misaligned a n .load)

/-- `MemWrite(addr, n, v)` (R13): alignment (R76), then range and declared code (R80, R90), then the bytes of `v`. -/
def State.store (s : State) (a : Word) (n : Nat) (v : Nat) : Except Fault State :=
  if s.alignedData a n then
    match firstBad s.mayStore a n with
    | none => .ok (s.setMem (Memory.writeBytes s.mem a (leBytes n v)))
    | some _ => .error (.accessFault a n .store)
  else .error (.misaligned a n .store)

/-- The instruction word at the pc (R72): alignment to 4 always (R77), then range (R80). -/
def State.fetch (s : State) : Except Fault (List Byte) :=
  if s.pc.toNat % 4 = 0 then
    match firstBad s.mayRead s.pc 4 with
    | none => .ok (Memory.readBytes s.mem s.pc 4)
    | some _ => .error (.accessFault s.pc 4 .fetch)
  else .error (.misaligned s.pc 4 .fetch)

/-- `EA = x[base] + extended imm`, wrapped (43_load_store.md R220). -/
def State.effAddr (s : State) (base : Reg) (imm : Half) : Word :=
  s.readX base + extend s.params.lsImmExt 16 imm

/-- A load: the access raises, or its value goes on. -/
def State.loadThen (s : State) (a : Word) (n : Nat) (k : Nat → Out) : Out :=
  match s.load a n with
  | .ok v => k v
  | .error r => raise r

/-- A store: the access raises, or the instruction goes on after it. -/
def State.storeThen (s : State) (a : Word) (n : Nat) (v : Nat) (k : State → Out) : Out :=
  match s.store a n v with
  | .ok t => k t
  | .error r => raise r

end Sys2Proof.Machine
end

