-- ==== Sys2Proof/Machine/Arith.lean ====
section
/-! DEFINITION. Arithmetic and logic (41_arith_logic.md R150 to R189): sources are read, a 32-bit result goes to
`x[ra]`, then `next`. -/

namespace Sys2Proof.Machine

/-- ADD (R155): `ra := rb + rc`. -/
def execAdd (ra rb rc : Reg) (s : State) : Out :=
  s.writeX ra (addWrap (s.readX rb).toInt (s.readX rc).toInt)

/-- ADDI (R156): `ra := rb + signed_ext(imm)`. -/
def execAddi (ra rb : Reg) (imm : Half) (s : State) : Out :=
  s.writeX ra (addWrap (s.readX rb).toInt (sext32 16 imm).toInt)

/-- ADDIU (R157): `ra := rb + unsigned_ext(imm)`. -/
def execAddiu (ra rb : Reg) (imm : Half) (s : State) : Out :=
  s.writeX ra (addWrap (s.readX rb).toInt (zext32 16 imm).toNat)

/-- SUB (R158): `ra := rb - rc`. -/
def execSub (ra rb rc : Reg) (s : State) : Out :=
  s.writeX ra (subWrap (s.readX rb).toInt (s.readX rc).toInt)

/-- SUBI (R159): `ra := rb - signed_ext(imm)`. -/
def execSubi (ra rb : Reg) (imm : Half) (s : State) : Out :=
  s.writeX ra (subWrap (s.readX rb).toInt (sext32 16 imm).toInt)

/-- SUBIU (R160): `ra := rb - unsigned_ext(imm)`. -/
def execSubiu (ra rb : Reg) (imm : Half) (s : State) : Out :=
  s.writeX ra (subWrap (s.readX rb).toInt (zext32 16 imm).toNat)

/-- MUL (R161): `ra := rb * rc`. -/
def execMul (ra rb rc : Reg) (s : State) : Out :=
  s.writeX ra (mulWrap (s.readX rb).toInt (s.readX rc).toInt)

/-- MULI (R162): `ra := rb * signed_ext(imm)`. -/
def execMuli (ra rb : Reg) (imm : Half) (s : State) : Out :=
  s.writeX ra (mulWrap (s.readX rb).toInt (sext32 16 imm).toInt)

/-- MULIU (R163): `ra := rb * unsigned_ext(imm)`. -/
def execMuliu (ra rb : Reg) (imm : Half) (s : State) : Out :=
  s.writeX ra (mulWrap (s.readX rb).toInt (zext32 16 imm).toNat)

/-- DIV (R164): `ra := rb / rc`, signed. -/
def execDiv (ra rb rc : Reg) (s : State) : Out :=
  s.writeArith s.params.divUndefined ra (sdiv s.params.divConvention (s.readX rb) (s.readX rc))

/-- DIVI (R165): `ra := rb / signed_ext(imm)`. -/
def execDivi (ra rb : Reg) (imm : Half) (s : State) : Out :=
  s.writeArith s.params.divUndefined ra (sdiv s.params.divConvention (s.readX rb) (sext32 16 imm))

/-- DIVIU (R166): `ra := rb / unsigned_ext(imm)`, the signed operator with a zero-extended divisor (conflict C8). -/
def execDiviu (ra rb : Reg) (imm : Half) (s : State) : Out :=
  s.writeArith s.params.divUndefined ra (sdiv s.params.divConvention (s.readX rb) (zext32 16 imm))

/-- MOD (R167): `ra := rb % rc`, signed. -/
def execMod (ra rb rc : Reg) (s : State) : Out :=
  s.writeArith s.params.divUndefined ra (smod s.params.divConvention (s.readX rb) (s.readX rc))

/-- MODI (R168): `ra := rb % signed_ext(imm)`. -/
def execModi (ra rb : Reg) (imm : Half) (s : State) : Out :=
  s.writeArith s.params.divUndefined ra (smod s.params.divConvention (s.readX rb) (sext32 16 imm))

/-- MODIU (R169): `ra := rb % unsigned_ext(imm)`, the signed operator with a zero-extended divisor (conflict C8). -/
def execModiu (ra rb : Reg) (imm : Half) (s : State) : Out :=
  s.writeArith s.params.divUndefined ra (smod s.params.divConvention (s.readX rb) (zext32 16 imm))

/-- SHL (R170): `ra := unsigned(rb) << unsigned(rc)`; the amount is the whole register. -/
def execShl (ra rb rc : Reg) (s : State) : Out :=
  s.writeArith s.params.shiftUndefined ra (shl (s.readX rb) (s.readX rc).toNat)

/-- SHLI (R171): `ra := unsigned(rb) << unsigned(imm)`. -/
def execShli (ra rb : Reg) (imm : Half) (s : State) : Out :=
  s.writeArith s.params.shiftUndefined ra (shl (s.readX rb) (zext32 16 imm).toNat)

/-- SLR (R172): `ra := unsigned(rb) >> unsigned(rc)`; the amount is the whole register. -/
def execSlr (ra rb rc : Reg) (s : State) : Out :=
  s.writeArith s.params.shiftUndefined ra (lsr (s.readX rb) (s.readX rc).toNat)

/-- SLRI (R173): `ra := unsigned(rb) >> unsigned(imm)`. -/
def execSlri (ra rb : Reg) (imm : Half) (s : State) : Out :=
  s.writeArith s.params.shiftUndefined ra (lsr (s.readX rb) (zext32 16 imm).toNat)

/-- SAR (R174): `ra := rb >> rc`, arithmetic; the amount is read as signed. -/
def execSar (ra rb rc : Reg) (s : State) : Out :=
  s.writeArith s.params.shiftUndefined ra (asr (s.readX rb) (s.readX rc).toInt)

/-- SARI (R175): `ra := rb >> imm`, arithmetic. -/
def execSari (ra rb : Reg) (imm : Half) (s : State) : Out :=
  s.writeArith s.params.shiftUndefined ra (asr (s.readX rb) imm.toNat)

/-- AND (R176): `ra := rb and rc`. -/
def execAnd (ra rb rc : Reg) (s : State) : Out :=
  s.writeX ra (s.readX rb &&& s.readX rc)

/-- OR (R177): `ra := rb or rc`. -/
def execOr (ra rb rc : Reg) (s : State) : Out :=
  s.writeX ra (s.readX rb ||| s.readX rc)

/-- XOR (R178): `ra := rb xor rc`. -/
def execXor (ra rb rc : Reg) (s : State) : Out :=
  s.writeX ra (s.readX rb ^^^ s.readX rc)

/-- NOT (R179): `ra := not rb`, all 32 bits complemented. -/
def execNot (ra rb : Reg) (s : State) : Out :=
  s.writeX ra (s.readX rb ^^^ 0xFFFFFFFF#32)

/-- EQ (R180): `ra := if rb = rc then 1 else 0`. -/
def execEq (ra rb rc : Reg) (s : State) : Out :=
  s.writeX ra (truthWord (s.readX rb == s.readX rc))

/-- NE (R181): `ra := if rb != rc then 1 else 0`. -/
def execNe (ra rb rc : Reg) (s : State) : Out :=
  s.writeX ra (truthWord (s.readX rb != s.readX rc))

/-- LT (R182): `ra := if rb < rc then 1 else 0`, signed. -/
def execLt (ra rb rc : Reg) (s : State) : Out :=
  s.writeX ra (truthWord (ltSigned (s.readX rb) (s.readX rc)))

/-- LTU (R183): `ra := if unsigned(rb) < unsigned(rc) then 1 else 0`. -/
def execLtu (ra rb rc : Reg) (s : State) : Out :=
  s.writeX ra (truthWord (ltUnsigned (s.readX rb) (s.readX rc)))

/-- GT (R184): `ra := if rb > rc then 1 else 0`, signed. -/
def execGt (ra rb rc : Reg) (s : State) : Out :=
  s.writeX ra (truthWord (ltSigned (s.readX rc) (s.readX rb)))

/-- GTU (R185): `ra := if unsigned(rb) > unsigned(rc) then 1 else 0`. -/
def execGtu (ra rb rc : Reg) (s : State) : Out :=
  s.writeX ra (truthWord (ltUnsigned (s.readX rc) (s.readX rb)))

/-- LE (R186): `ra := if rb <= rc then 1 else 0`, signed. -/
def execLe (ra rb rc : Reg) (s : State) : Out :=
  s.writeX ra (truthWord (leSigned (s.readX rb) (s.readX rc)))

/-- LEU (R187): `ra := if unsigned(rb) <= unsigned(rc) then 1 else 0`. -/
def execLeu (ra rb rc : Reg) (s : State) : Out :=
  s.writeX ra (truthWord (leUnsigned (s.readX rb) (s.readX rc)))

/-- GE (R188): `ra := if rb >= rc then 1 else 0`, signed. -/
def execGe (ra rb rc : Reg) (s : State) : Out :=
  s.writeX ra (truthWord (leSigned (s.readX rc) (s.readX rb)))

/-- GEU (R189): `ra := if unsigned(rb) >= unsigned(rc) then 1 else 0`. -/
def execGeu (ra rb rc : Reg) (s : State) : Out :=
  s.writeX ra (truthWord (leUnsigned (s.readX rc) (s.readX rb)))

end Sys2Proof.Machine
end

