-- ==== Sys2Proof/Machine/Block.lean ====
section
/-! DEFINITION. The Memory (block) instructions (48_memory_block.md R340 to R345). -/

namespace Sys2Proof.Machine

/-- The ranges of `n` bytes from `d` and from `src` share a byte address, on the wrapped addresses (R342). -/
def rangesOverlap (d src : Word) (n : Nat) : Bool :=
  decide (0 < n) && (decide ((d - src).toNat < n) || decide ((src - d).toNat < n))

/-- The registers a block instruction names hold unspecified values afterwards, R0 excepted (R340). -/
def State.drawNamed (s : State) (ra rb rc : Reg) : State :=
  ((s.drawX ra).drawX rb).drawX rc

/-- The end of a block instruction: every destination byte is checked before any is written (R340), then the bytes
are stored, the named registers become unspecified, and `next`. -/
def State.blockStore (s : State) (ra rb rc : Reg) (d : Word) (bytes : List Byte) : Out :=
  ((s.setMem (Memory.writeBytes s.mem d bytes)).drawNamed ra rb rc).toNext

/-- LMSZ (R341): `ra := MEMSZ`, as `wrap32(MEMSZ)`. -/
def execLmsz (ra : Reg) (s : State) : Out :=
  s.writeX ra (wrap32 s.memsz)

/-- MCPY (R342): `memcpy(ra, rb, rc)`. The overlap check comes first (R406), then the source range, then the destination range,
each by its lowest byte (log 17). -/
def execMcpy (ra rb rc : Reg) (s : State) : Out :=
  let d := s.readX ra
  let src := s.readX rb
  let n := (s.readX rc).toNat
  if rangesOverlap d src n then refuse .mcpyOverlap
  else
    match firstBad s.mayRead src n with
    | some a => raise (.accessFault a 1 .load)
    | none =>
      match firstBad s.mayStore d n with
      | some a => raise (.accessFault a 1 .store)
      | none => s.blockStore ra rb rc d (Memory.readBytes s.mem src n)

/-- MCMP (R343): refused. The Meaning names no destination for the result. -/
def execMcmp (_ra _rb _rc : Reg) (_s : State) : Out :=
  refuse .mcmpNoDestination

/-- MCHR (R344): refused. The Meaning names no destination for the result. -/
def execMchr (_ra _rb _rc : Reg) (_s : State) : Out :=
  refuse .mchrNoDestination

/-- MSET (R345): `memset(ra, rb, rc)`: the low 8 bits of rb to each byte. -/
def execMset (ra rb rc : Reg) (s : State) : Out :=
  let d := s.readX ra
  let n := (s.readX rc).toNat
  match firstBad s.mayStore d n with
  | some a => raise (.accessFault a 1 .store)
  | none => s.blockStore ra rb rc d (List.replicate n ((s.readX rb).extractLsb' 0 8))

end Sys2Proof.Machine
end

