-- ==== Sys2Proof/Machine/Branch.lean ====
section
/-! DEFINITION. Branches and jumps (42_branch_jump.md R200 to R210). No delay slot, no register written. -/

namespace Sys2Proof.Machine

/-- B (R201): `PC := PC + offset(imm)`. -/
def execB (imm : Half) (s : State) : Out :=
  s.branch true imm

/-- BE (R202): `if ra = rb then PC := PC + offset(imm)`. -/
def execBe (ra rb : Reg) (imm : Half) (s : State) : Out :=
  s.branch (s.readX ra == s.readX rb) imm

/-- BNE (R203): `if ra != rb then PC := PC + offset(imm)`. -/
def execBne (ra rb : Reg) (imm : Half) (s : State) : Out :=
  s.branch (s.readX ra != s.readX rb) imm

/-- BNEZ (R204): `if ra != 0 then PC := PC + offset(imm)`, the second spelling of BNE with rb = R0. -/
def execBnez (ra : Reg) (imm : Half) (s : State) : Out :=
  s.branch (s.readX ra != 0#32) imm

/-- BLT (R205): `if ra < rb then PC := PC + offset(imm)`, signed. -/
def execBlt (ra rb : Reg) (imm : Half) (s : State) : Out :=
  s.branch (ltSigned (s.readX ra) (s.readX rb)) imm

/-- BGT (R206): `if ra > rb then PC := PC + offset(imm)`, signed. -/
def execBgt (ra rb : Reg) (imm : Half) (s : State) : Out :=
  s.branch (ltSigned (s.readX rb) (s.readX ra)) imm

/-- J (R207): `PCsrc[31:26] ++ imm24 ++ 00` (conflict C4). -/
def execJ (imm24 : BitVec 24) (s : State) : Out :=
  .next (s.setPc (s.pcSrc.extractLsb' 26 6 ++ imm24 ++ 0#2))

/-- JR (R208): `PC := ra`, all 32 bits. -/
def execJr (ra : Reg) (s : State) : Out :=
  .next (s.setPc (s.readX ra))

/-- CALL (R209): refused, whatever its operand. The source's Meaning is "? PC := ra". -/
def execCall (_ra : Reg) (_s : State) : Out :=
  refuse .callUndecided

/-- RET (R210): refused. The source's Meaning is "?". -/
def execRet (_s : State) : Out :=
  refuse .retUndecided

end Sys2Proof.Machine
end

