-- ==== Sys2Proof/Machine/Control.lean ====
section
/-! DEFINITION. Instruction Control (40_control.md): NOP. -/

namespace Sys2Proof.Machine

/-- NOP (R140): "do nothing". -/
def execNop (s : State) : Out := s.toNext

end Sys2Proof.Machine
end

