-- ==== Sys2Proof/Machine/Conversion.lean ====
section
/-! DEFINITION. The Conversion instructions (46_conversion.md R300 to R304). -/

namespace Sys2Proof.Machine

/-- Write a converted integer, or `raise FpUndefined` where there is none (R303, R304); raised for ra = 0 too. -/
def State.writeConverted (s : State) (ra : Reg) : Option Word → Out
  | some v => s.writeX ra v
  | none => raise .fpUndefined

/-- CIF (R301): `fa := float(ra)`. -/
def execCif (fa ra : Reg) (s : State) : Out :=
  s.writeF fa (FP.ofS32 (s.readX ra))

/-- CUF (R302): `fa := float(unsigned(ra))`. -/
def execCuf (fa ra : Reg) (s : State) : Out :=
  s.writeF fa (FP.ofU32 (s.readX ra))

/-- CFI (R303): `ra := signed(fa)`. -/
def execCfi (ra fa : Reg) (s : State) : Out :=
  s.writeConverted ra (s.fp.toS32 (s.readF fa))

/-- CFU (R304): `ra := signed(fabs(fa))` (conflict C8). -/
def execCfu (ra fa : Reg) (s : State) : Out :=
  s.writeConverted ra (s.fp.toS32 (s.fp.fabs (s.readF fa)))

end Sys2Proof.Machine
end

