-- ==== Sys2Proof/Machine/Float.lean ====
section
/-! DEFINITION. The Floating-point instructions (45_float.md R265 to R290): sources are read, a 64-bit pattern goes
to `f[fa]`, then `next`; none raises. They call the record `FP` in force by name (R260). -/

namespace Sys2Proof.Machine

/-- Write the result of an operation that may be a NaN: `none` stands for a NaN that the spec leaves unspecified,
and a free NaN is written (R261, log 14). -/
def State.writeFp (s : State) (fa : Reg) : Option Long → Out
  | some v => s.writeF fa v
  | none => (s.setF fa (FP.anyNan (Config.freeNan s.draws))).bumpDraws.toNext

/-- ADDF (R266): `fa := fb .+ fc`. -/
def execAddf (fa fb fc : Reg) (s : State) : Out :=
  s.writeFp fa (s.fp.add (s.readF fb) (s.readF fc))

/-- SUBF (R267): `fa := fb .- fc`. -/
def execSubf (fa fb fc : Reg) (s : State) : Out :=
  s.writeFp fa (s.fp.sub (s.readF fb) (s.readF fc))

/-- MULF (R268): `fa := fb .* fc`. -/
def execMulf (fa fb fc : Reg) (s : State) : Out :=
  s.writeFp fa (s.fp.mul (s.readF fb) (s.readF fc))

/-- DIVF (R269): `fa := fb ./ fc`. -/
def execDivf (fa fb fc : Reg) (s : State) : Out :=
  s.writeFp fa (s.fp.div (s.readF fb) (s.readF fc))

/-- EQF (R270): `fa := if fb .= fc then 1 else 0`, as 1.0 or +0.0 (R262). -/
def execEqf (fa fb fc : Reg) (s : State) : Out :=
  s.writeF fa (truthLong (s.fp.eq (s.readF fb) (s.readF fc)))

/-- NEF (R271): `fa := if fb .!= fc then 1 else 0`, as 1.0 or +0.0 (R262). -/
def execNef (fa fb fc : Reg) (s : State) : Out :=
  s.writeF fa (truthLong (s.fp.ne (s.readF fb) (s.readF fc)))

/-- LTF (R272): `fa := if fb .< fc then 1 else 0`, as 1.0 or +0.0 (R262). -/
def execLtf (fa fb fc : Reg) (s : State) : Out :=
  s.writeF fa (truthLong (s.fp.lt (s.readF fb) (s.readF fc)))

/-- GTF (R273): `fa := if fb .> fc then 1 else 0`, as 1.0 or +0.0 (R262). -/
def execGtf (fa fb fc : Reg) (s : State) : Out :=
  s.writeF fa (truthLong (s.fp.gt (s.readF fb) (s.readF fc)))

/-- LEF (R274): `fa := if fb .<= fc then 1 else 0`, as 1.0 or +0.0 (R262). -/
def execLef (fa fb fc : Reg) (s : State) : Out :=
  s.writeF fa (truthLong (s.fp.le (s.readF fb) (s.readF fc)))

/-- GEF (R275): `fa := if fb .>= fc then 1 else 0`, as 1.0 or +0.0 (R262). -/
def execGef (fa fb fc : Reg) (s : State) : Out :=
  s.writeF fa (truthLong (s.fp.ge (s.readF fb) (s.readF fc)))

/-- POW (R276): `fa := pow(fb, fc)`, uninterpreted (R264). -/
def execPow (fa fb fc : Reg) (s : State) : Out :=
  s.writeF fa (s.fp.pow (s.readF fb) (s.readF fc))

/-- FABS (R277): `fa := fabs(fb)`. -/
def execFabs (fa fb : Reg) (s : State) : Out :=
  s.writeF fa (s.fp.fabs (s.readF fb))

/-- LOG (R278): `fa := log(fb)`, uninterpreted (R264). -/
def execLog (fa fb : Reg) (s : State) : Out :=
  s.writeF fa (s.fp.log (s.readF fb))

/-- LOGT (R279): `fa := log10(fb)`, uninterpreted (R264). -/
def execLogt (fa fb : Reg) (s : State) : Out :=
  s.writeF fa (s.fp.log10 (s.readF fb))

/-- EXP (R280): `fa := exp(fb)`, uninterpreted (R264). -/
def execExp (fa fb : Reg) (s : State) : Out :=
  s.writeF fa (s.fp.exp (s.readF fb))

/-- FLOR (R281): `fa := floor(fb)`. -/
def execFlor (fa fb : Reg) (s : State) : Out :=
  s.writeFp fa (s.fp.floor (s.readF fb))

/-- CEIL (R282): `fa := ceil(fb)`. -/
def execCeil (fa fb : Reg) (s : State) : Out :=
  s.writeFp fa (s.fp.ceil (s.readF fb))

/-- SIN (R283): `fa := sin(fb)`, uninterpreted (R264). -/
def execSin (fa fb : Reg) (s : State) : Out :=
  s.writeF fa (s.fp.sin (s.readF fb))

/-- COS (R284): `fa := cos(fb)`, uninterpreted (R264). -/
def execCos (fa fb : Reg) (s : State) : Out :=
  s.writeF fa (s.fp.cos (s.readF fb))

/-- TAN (R285): `fa := tan(fb)`, uninterpreted (R264). -/
def execTan (fa fb : Reg) (s : State) : Out :=
  s.writeF fa (s.fp.tan (s.readF fb))

/-- ASIN (R286): `fa := asin(fb)`, uninterpreted (R264). -/
def execAsin (fa fb : Reg) (s : State) : Out :=
  s.writeF fa (s.fp.asin (s.readF fb))

/-- ACOS (R287): `fa := acos(fb)`, uninterpreted (R264). -/
def execAcos (fa fb : Reg) (s : State) : Out :=
  s.writeF fa (s.fp.acos (s.readF fb))

/-- ATAN (R288): `fa := arctan(fb)`, uninterpreted (R264). -/
def execAtan (fa fb : Reg) (s : State) : Out :=
  s.writeF fa (s.fp.atan (s.readF fb))

/-- SQRT (R289): `fa := sqrt(fb)`. -/
def execSqrt (fa fb : Reg) (s : State) : Out :=
  s.writeFp fa (s.fp.sqrt (s.readF fb))

/-- FMOD (R290): `fa := fb .% fc`. -/
def execFmod (fa fb fc : Reg) (s : State) : Out :=
  s.writeFp fa (s.fp.fmod (s.readF fb) (s.readF fc))

end Sys2Proof.Machine
end

