-- ==== Sys2Proof/Machine/LoadStore.lean ====
section
/-! DEFINITION. Loads, stores and immediate loads (43_load_store.md R220 to R231). -/

namespace Sys2Proof.Machine

/-- LW (R221): `ra := word(rb + imm)`. -/
def execLw (ra rb : Reg) (imm : Half) (s : State) : Out :=
  s.loadThen (s.effAddr rb imm) 4 fun v => s.writeX ra (BitVec.ofNat 32 v)

/-- LH (R222): `ra := half(rb + imm)`, extended by NARROW_LOAD_EXT. -/
def execLh (ra rb : Reg) (imm : Half) (s : State) : Out :=
  s.loadThen (s.effAddr rb imm) 2 fun v =>
    s.writeX ra (extend s.params.narrowLoadExt 16 (BitVec.ofNat 16 v))

/-- LB (R223): `ra := byte(rb + imm)`, extended by NARROW_LOAD_EXT. -/
def execLb (ra rb : Reg) (imm : Half) (s : State) : Out :=
  s.loadThen (s.effAddr rb imm) 1 fun v =>
    s.writeX ra (extend s.params.narrowLoadExt 8 (BitVec.ofNat 8 v))

/-- LF (R224): `fa := long(ra + imm)`: destination in bits 23..20, base in bits 19..16 (conflict C11). -/
def execLf (fa ra : Reg) (imm : Half) (s : State) : Out :=
  s.loadThen (s.effAddr ra imm) 8 fun v => s.writeF fa (BitVec.ofNat 64 v)

/-- LI (R225): `ra := imm`, signed. -/
def execLi (ra : Reg) (imm : Half) (s : State) : Out :=
  s.writeX ra (sext32 16 imm)

/-- LIU (R226): `ra := unsigned(imm)`. -/
def execLiu (ra : Reg) (imm : Half) (s : State) : Out :=
  s.writeX ra (zext32 16 imm)

/-- LIH (R227): `ra := imm << 16`; the low half becomes zero. -/
def execLih (ra : Reg) (imm : Half) (s : State) : Out :=
  s.writeX ra (highHalf imm)

/-- SW (R228): `word(rb + imm) := ra`. -/
def execSw (ra rb : Reg) (imm : Half) (s : State) : Out :=
  s.storeThen (s.effAddr rb imm) 4 (s.readX ra).toNat State.toNext

/-- SH (R229): `half(rb + imm) := ra(15..0)`. -/
def execSh (ra rb : Reg) (imm : Half) (s : State) : Out :=
  s.storeThen (s.effAddr rb imm) 2 ((s.readX ra).extractLsb' 0 16).toNat State.toNext

/-- SB (R230): `byte(rb + imm) := ra(7..0)`. -/
def execSb (ra rb : Reg) (imm : Half) (s : State) : Out :=
  s.storeThen (s.effAddr rb imm) 1 ((s.readX ra).extractLsb' 0 8).toNat State.toNext

/-- SF (R231): `long(ra + imm) := fa`: base in bits 23..20, source in bits 19..16 (conflict C11). -/
def execSf (ra fa : Reg) (imm : Half) (s : State) : Out :=
  s.storeThen (s.effAddr ra imm) 8 (s.readF fa).toNat State.toNext

end Sys2Proof.Machine
end

