-- ==== Sys2Proof/Machine/Stack.lean ====
section
/-! DEFINITION. The Stack instructions (44_stack.md R240 to R251). The source gives them no meaning: under
STACK_SEMANTICS = refuse all ten are refused; under `candidate` POPW, PSHW, POPF and PSHF have the conjectured
semantics of R241 (PRESUMED, log 3), through SP, in 8-byte slots, growing to lower addresses. -/

namespace Sys2Proof.Machine

/-- The stack pointer's index (10_state.md R30, R241). -/
def spIndex : Reg := 12

/-- The setting of STACK_SEMANTICS and the slot's alignment (R241: "Stack is 8-byte-aligned"), checked before a
stack access at `a`; the refusal comes first (R406). The outcome names `sp`, not the slot (R241). -/
def State.stackSlot (s : State) (mnemonic : String) (a : Word) (k : Out) : Out :=
  match s.params.stackSemantics with
  | .refuse => refuse (.stackMeaningEmpty mnemonic)
  | .candidate => if a.toNat % 8 = 0 then k else raise (.misaligned (s.readX spIndex) 8 .stack)

/-- The slot a push writes: `wrap32(sp - 8)` (R241). -/
def State.pushAddr (s : State) : Word := s.readX spIndex - 8#32

/-- The slot a pop reads: `sp` (R241). -/
def State.popAddr (s : State) : Word := s.readX spIndex

/-- POPW (R242): `v = MemRead(sp, 4)`; `x[12] <- wrap32(sp + 8)`; `x[ra] <- v`; `next` (R241). -/
def execPopw (ra : Reg) (s : State) : Out :=
  s.stackSlot "POPW" s.popAddr <|
    s.loadThen s.popAddr 4 fun v => (s.setX spIndex (s.popAddr + 8#32)).writeX ra (BitVec.ofNat 32 v)

/-- POPH (R243): refused under both settings (R240, R241). -/
def execPoph (_ra : Reg) (_s : State) : Out :=
  refuse (.stackMeaningEmpty "POPH")

/-- POPB (R244): refused under both settings (R240, R241). -/
def execPopb (_ra : Reg) (_s : State) : Out :=
  refuse (.stackMeaningEmpty "POPB")

/-- POPF (R245): `f[fa] <- MemRead(sp, 8)`; `x[12] <- wrap32(sp + 8)`; `next` (R241). -/
def execPopf (fa : Reg) (s : State) : Out :=
  s.stackSlot "POPF" s.popAddr <|
    s.loadThen s.popAddr 8 fun v => (s.setX spIndex (s.popAddr + 8#32)).writeF fa (BitVec.ofNat 64 v)

/-- POPA (R246): refused under both settings (R240, R241). -/
def execPopa (_ra : Reg) (_s : State) : Out :=
  refuse (.stackMeaningEmpty "POPA")

/-- PSHW (R247): `a = wrap32(sp - 8)`; `MemWrite(a, 4, x[ra])`; `x[12] <- a`; `next` (R241). -/
def execPshw (ra : Reg) (s : State) : Out :=
  s.stackSlot "PSHW" s.pushAddr <|
    s.storeThen s.pushAddr 4 (s.readX ra).toNat fun t => t.writeX spIndex s.pushAddr

/-- PSHH (R248): refused under both settings (R240, R241). -/
def execPshh (_ra : Reg) (_s : State) : Out :=
  refuse (.stackMeaningEmpty "PSHH")

/-- PSHB (R249): refused under both settings (R240, R241). -/
def execPshb (_ra : Reg) (_s : State) : Out :=
  refuse (.stackMeaningEmpty "PSHB")

/-- PSHF (R250): `a = wrap32(sp - 8)`; `MemWrite(a, 8, f[fa])`; `x[12] <- a`; `next` (R241). -/
def execPshf (fa : Reg) (s : State) : Out :=
  s.stackSlot "PSHF" s.pushAddr <|
    s.storeThen s.pushAddr 8 (s.readF fa).toNat fun t => t.writeX spIndex s.pushAddr

/-- PSHA (R251): refused under both settings (R240, R241). -/
def execPsha (_ra : Reg) (_s : State) : Out :=
  refuse (.stackMeaningEmpty "PSHA")

end Sys2Proof.Machine
end

