-- ==== Sys2Proof/Machine/System.lean ====
section
/-! DEFINITION. The System instructions (47_system.md R310 to R325). One mode: each may run at any time (R420). -/

namespace Sys2Proof.Machine

/-- STI, STPG and STTO: `raise Unmodelled`, or the source's effect recorded, by the setting (R312, R321, R322; log
4). -/
def controlWrite (setting : ControlWrites) (mnemonic : String) (written : State) : Out :=
  match setting with
  | .refuse => refuse (.controlWriteRefused mnemonic)
  | .record => written.toNext

/-- IDLE (R310): refused. The Meaning gives no waiting condition and no interrupt entry. -/
def execIdle (_s : State) : Out :=
  refuse .idleNotDescribed

/-- CLI (R311): `rc := IENA, IENA := 0`, the read first. -/
def execCli (rc : Reg) (s : State) : Out :=
  ((s.setX rc (zext32 1 s.iena)).setIena 0#1).toNext

/-- STI (R312): `raise Unmodelled(STI)`, or `IENA := 1` recorded. -/
def execSti (s : State) : Out :=
  controlWrite s.params.stiWrite "STI" (s.setIena 1#1)

/-- LUSP (R313): `rc := USP`. -/
def execLusp (rc : Reg) (s : State) : Out :=
  s.writeX rc s.usp

/-- SUSP (R314): `USP := rc`. -/
def execSusp (rc : Reg) (s : State) : Out :=
  (s.setUsp (s.readX rc)).toNext

/-- IRET (R315): refused. What it restores, and from where, is not given. -/
def execIret (_s : State) : Out :=
  refuse .iretNotDescribed

/-- BIN (R316): `rc := getchar()`: the next byte of CONSOLE_IN, or 0xFFFFFFFF when none is left; it never blocks. -/
def execBin (rc : Reg) (s : State) : Out :=
  match s.consoleIn.take with
  | none => s.writeX rc 0xFFFFFFFF#32
  | some (b, c) => (s.setConsoleIn c).writeX rc (zext32 8 b)

/-- BOUT (R317): `putchar(rc)`: the low 8 bits. -/
def execBout (rc : Reg) (s : State) : Out :=
  (s.setConsoleOut (s.consoleOut ++ [(s.readX rc).extractLsb' 0 8])).toNext

/-- TRAP (R318): refused. No entry sequence, cause or saved state is given. -/
def execTrap (_s : State) : Out :=
  refuse .trapNotDescribed

/-- STIV (R319): `IVEC := rc`. -/
def execStiv (rc : Reg) (s : State) : Out :=
  (s.setIvec (s.readX rc)).toNext

/-- STPD (R320): `PDIR := rc`. -/
def execStpd (rc : Reg) (s : State) : Out :=
  (s.setPdir (s.readX rc)).toNext

/-- STPG (R321): `raise Unmodelled(STPG)`; `PG := rc` only where the setting records it. -/
def execStpg (rc : Reg) (s : State) : Out :=
  controlWrite s.params.pgToWrite "STPG" (s.setPg (s.readX rc))

/-- STTO (R322): `raise Unmodelled(STTO)`; `TO := rc` only where the setting records it. -/
def execStto (rc : Reg) (s : State) : Out :=
  controlWrite s.params.pgToWrite "STTO" (s.setTout (s.readX rc))

/-- LVAD (R323): `rc := VADR`. -/
def execLvad (rc : Reg) (s : State) : Out :=
  s.writeX rc s.vadr

/-- HALT (R324): "halt system": `halted <- true`, the pc unchanged. -/
def execHalt (s : State) : Out :=
  .next s.setHalted

end Sys2Proof.Machine
end

