-- ==== Sys2Proof/Machine/Dispatch.lean ====
section
/-! DEFINITION. One arm per constructor of `Instr`, each one direct call of that instruction's meaning. -/

namespace Sys2Proof.Machine

def exec (i : Instr) (s : State) : Host.Outcome State Fault Refusal :=
  match i with
  | .nop => Sys2Proof.Machine.execNop s
  | .add ra rb rc => Sys2Proof.Machine.execAdd ra rb rc s
  | .addi ra rb imm => Sys2Proof.Machine.execAddi ra rb imm s
  | .addiu ra rb imm => Sys2Proof.Machine.execAddiu ra rb imm s
  | .sub ra rb rc => Sys2Proof.Machine.execSub ra rb rc s
  | .subi ra rb imm => Sys2Proof.Machine.execSubi ra rb imm s
  | .subiu ra rb imm => Sys2Proof.Machine.execSubiu ra rb imm s
  | .mul ra rb rc => Sys2Proof.Machine.execMul ra rb rc s
  | .muli ra rb imm => Sys2Proof.Machine.execMuli ra rb imm s
  | .muliu ra rb imm => Sys2Proof.Machine.execMuliu ra rb imm s
  | .div ra rb rc => Sys2Proof.Machine.execDiv ra rb rc s
  | .divi ra rb imm => Sys2Proof.Machine.execDivi ra rb imm s
  | .diviu ra rb imm => Sys2Proof.Machine.execDiviu ra rb imm s
  | .mod ra rb rc => Sys2Proof.Machine.execMod ra rb rc s
  | .modi ra rb imm => Sys2Proof.Machine.execModi ra rb imm s
  | .modiu ra rb imm => Sys2Proof.Machine.execModiu ra rb imm s
  | .shl ra rb rc => Sys2Proof.Machine.execShl ra rb rc s
  | .shli ra rb imm => Sys2Proof.Machine.execShli ra rb imm s
  | .slr ra rb rc => Sys2Proof.Machine.execSlr ra rb rc s
  | .slri ra rb imm => Sys2Proof.Machine.execSlri ra rb imm s
  | .sar ra rb rc => Sys2Proof.Machine.execSar ra rb rc s
  | .sari ra rb imm => Sys2Proof.Machine.execSari ra rb imm s
  | .and ra rb rc => Sys2Proof.Machine.execAnd ra rb rc s
  | .or ra rb rc => Sys2Proof.Machine.execOr ra rb rc s
  | .xor ra rb rc => Sys2Proof.Machine.execXor ra rb rc s
  | .not ra rb => Sys2Proof.Machine.execNot ra rb s
  | .eq ra rb rc => Sys2Proof.Machine.execEq ra rb rc s
  | .ne ra rb rc => Sys2Proof.Machine.execNe ra rb rc s
  | .lt ra rb rc => Sys2Proof.Machine.execLt ra rb rc s
  | .ltu ra rb rc => Sys2Proof.Machine.execLtu ra rb rc s
  | .gt ra rb rc => Sys2Proof.Machine.execGt ra rb rc s
  | .gtu ra rb rc => Sys2Proof.Machine.execGtu ra rb rc s
  | .le ra rb rc => Sys2Proof.Machine.execLe ra rb rc s
  | .leu ra rb rc => Sys2Proof.Machine.execLeu ra rb rc s
  | .ge ra rb rc => Sys2Proof.Machine.execGe ra rb rc s
  | .geu ra rb rc => Sys2Proof.Machine.execGeu ra rb rc s
  | .b imm => Sys2Proof.Machine.execB imm s
  | .be ra rb imm => Sys2Proof.Machine.execBe ra rb imm s
  | .bne ra rb imm => Sys2Proof.Machine.execBne ra rb imm s
  | .bnez ra imm => Sys2Proof.Machine.execBnez ra imm s
  | .blt ra rb imm => Sys2Proof.Machine.execBlt ra rb imm s
  | .bgt ra rb imm => Sys2Proof.Machine.execBgt ra rb imm s
  | .j imm24 => Sys2Proof.Machine.execJ imm24 s
  | .jr ra => Sys2Proof.Machine.execJr ra s
  | .call ra => Sys2Proof.Machine.execCall ra s
  | .ret => Sys2Proof.Machine.execRet s
  | .lw ra rb imm => Sys2Proof.Machine.execLw ra rb imm s
  | .lh ra rb imm => Sys2Proof.Machine.execLh ra rb imm s
  | .lb ra rb imm => Sys2Proof.Machine.execLb ra rb imm s
  | .lf fa ra imm => Sys2Proof.Machine.execLf fa ra imm s
  | .li ra imm => Sys2Proof.Machine.execLi ra imm s
  | .liu ra imm => Sys2Proof.Machine.execLiu ra imm s
  | .lih ra imm => Sys2Proof.Machine.execLih ra imm s
  | .sw ra rb imm => Sys2Proof.Machine.execSw ra rb imm s
  | .sh ra rb imm => Sys2Proof.Machine.execSh ra rb imm s
  | .sb ra rb imm => Sys2Proof.Machine.execSb ra rb imm s
  | .sf ra fa imm => Sys2Proof.Machine.execSf ra fa imm s
  | .popw ra => Sys2Proof.Machine.execPopw ra s
  | .poph ra => Sys2Proof.Machine.execPoph ra s
  | .popb ra => Sys2Proof.Machine.execPopb ra s
  | .popf fa => Sys2Proof.Machine.execPopf fa s
  | .popa ra => Sys2Proof.Machine.execPopa ra s
  | .pshw ra => Sys2Proof.Machine.execPshw ra s
  | .pshh ra => Sys2Proof.Machine.execPshh ra s
  | .pshb ra => Sys2Proof.Machine.execPshb ra s
  | .pshf fa => Sys2Proof.Machine.execPshf fa s
  | .psha ra => Sys2Proof.Machine.execPsha ra s
  | .addf fa fb fc => Sys2Proof.Machine.execAddf fa fb fc s
  | .subf fa fb fc => Sys2Proof.Machine.execSubf fa fb fc s
  | .mulf fa fb fc => Sys2Proof.Machine.execMulf fa fb fc s
  | .divf fa fb fc => Sys2Proof.Machine.execDivf fa fb fc s
  | .eqf fa fb fc => Sys2Proof.Machine.execEqf fa fb fc s
  | .nef fa fb fc => Sys2Proof.Machine.execNef fa fb fc s
  | .ltf fa fb fc => Sys2Proof.Machine.execLtf fa fb fc s
  | .gtf fa fb fc => Sys2Proof.Machine.execGtf fa fb fc s
  | .lef fa fb fc => Sys2Proof.Machine.execLef fa fb fc s
  | .gef fa fb fc => Sys2Proof.Machine.execGef fa fb fc s
  | .pow fa fb fc => Sys2Proof.Machine.execPow fa fb fc s
  | .fabs fa fb => Sys2Proof.Machine.execFabs fa fb s
  | .log fa fb => Sys2Proof.Machine.execLog fa fb s
  | .logt fa fb => Sys2Proof.Machine.execLogt fa fb s
  | .exp fa fb => Sys2Proof.Machine.execExp fa fb s
  | .flor fa fb => Sys2Proof.Machine.execFlor fa fb s
  | .ceil fa fb => Sys2Proof.Machine.execCeil fa fb s
  | .sin fa fb => Sys2Proof.Machine.execSin fa fb s
  | .cos fa fb => Sys2Proof.Machine.execCos fa fb s
  | .tan fa fb => Sys2Proof.Machine.execTan fa fb s
  | .asin fa fb => Sys2Proof.Machine.execAsin fa fb s
  | .acos fa fb => Sys2Proof.Machine.execAcos fa fb s
  | .atan fa fb => Sys2Proof.Machine.execAtan fa fb s
  | .sqrt fa fb => Sys2Proof.Machine.execSqrt fa fb s
  | .fmod fa fb fc => Sys2Proof.Machine.execFmod fa fb fc s
  | .cif fa ra => Sys2Proof.Machine.execCif fa ra s
  | .cuf fa ra => Sys2Proof.Machine.execCuf fa ra s
  | .cfi ra fa => Sys2Proof.Machine.execCfi ra fa s
  | .cfu ra fa => Sys2Proof.Machine.execCfu ra fa s
  | .idle => Sys2Proof.Machine.execIdle s
  | .cli rc => Sys2Proof.Machine.execCli rc s
  | .sti => Sys2Proof.Machine.execSti s
  | .lusp rc => Sys2Proof.Machine.execLusp rc s
  | .susp rc => Sys2Proof.Machine.execSusp rc s
  | .iret => Sys2Proof.Machine.execIret s
  | .bin rc => Sys2Proof.Machine.execBin rc s
  | .bout rc => Sys2Proof.Machine.execBout rc s
  | .trap => Sys2Proof.Machine.execTrap s
  | .stiv rc => Sys2Proof.Machine.execStiv rc s
  | .stpd rc => Sys2Proof.Machine.execStpd rc s
  | .stpg rc => Sys2Proof.Machine.execStpg rc s
  | .stto rc => Sys2Proof.Machine.execStto rc s
  | .lvad rc => Sys2Proof.Machine.execLvad rc s
  | .halt => Sys2Proof.Machine.execHalt s
  | .lmsz ra => Sys2Proof.Machine.execLmsz ra s
  | .mcpy ra rb rc => Sys2Proof.Machine.execMcpy ra rb rc s
  | .mcmp ra rb rc => Sys2Proof.Machine.execMcmp ra rb rc s
  | .mchr ra rb rc => Sys2Proof.Machine.execMchr ra rb rc s
  | .mset ra rb rc => Sys2Proof.Machine.execMset ra rb rc s

end Sys2Proof.Machine
end

