-- ==== Sys2Proof/Machine/Step.lean ====
section
/-! DEFINITION. One step of the machine (60_exceptions.md R435), and how a word is placed where the next step
fetches. -/

namespace Sys2Proof.Machine

/-- One step (R435), its checks in the order of R406: a halted machine has no next step; with PG other than 0 the
fetch is not described (R45, R86; log 5); then fetch alignment and range, decoding, and the instruction. -/
def step (s : State) : Host.Outcome State Fault Refusal :=
  if s.halted then raise .halted
  else if s.pg ≠ 0#32 then refuse .translationNotDescribed
  else
    match s.fetch with
    | .error r => raise r
    | .ok bytes =>
      match decodeBytes bytes with
      | .error _ => raise (.illegalInstruction (BitVec.ofNat 32 (leValue bytes)))
      | .ok i => exec i s

/-- `s` with the instruction whose bits are `w` (those from `nbits` on zero) stored at the pc, where `step` fetches,
little endian (R72). It stands for the loading of a program, which the spec puts outside the machine (R450; log 19). -/
def State.withFetchWord (s : State) (nbits w : Nat) : State :=
  s.setMem (Memory.writeBytes s.mem s.pc (leBytes 4 (w % 2 ^ nbits)))

end Sys2Proof.Machine
end

