-- ==== Sys2Proof/Machine/Table.lean ====
section
/-! DEFINITION. The rows of spec/opcode_table.json, written from that table and not from the encoder, so that the
decoder and the encoder can be held against them. -/

namespace Sys2Proof.Machine

/-- A row of the opcode table: a word is the row's when its bits under `mask` are `pattern` (30_encoding.md R115).
`used` covers the mask and the operand fields; the other bits are ignored (R107). -/
structure OpcodeRow where
  mnemonic : String
  pattern : Word
  mask : Word
  used : Word
  deriving DecidableEq, Repr

/-- The word has the row's fixed bits. -/
def OpcodeRow.covers (r : OpcodeRow) (w : Word) : Bool :=
  w &&& r.mask == r.pattern

/-- The row of an instruction. -/
def opcodeRow (i : Instr) : OpcodeRow :=
  match i with
  | .nop => ⟨"NOP", 0x00000000#32, 0xFFFFFFFF#32, 0xFFFFFFFF#32⟩
  | .add _ _ _ => ⟨"ADD", 0x01000000#32, 0xFF000000#32, 0xFFFFF000#32⟩
  | .addi _ _ _ => ⟨"ADDI", 0x02000000#32, 0xFF000000#32, 0xFFFFFFFF#32⟩
  | .addiu _ _ _ => ⟨"ADDIU", 0x03000000#32, 0xFF000000#32, 0xFFFFFFFF#32⟩
  | .sub _ _ _ => ⟨"SUB", 0x04000000#32, 0xFF000000#32, 0xFFFFF000#32⟩
  | .subi _ _ _ => ⟨"SUBI", 0x05000000#32, 0xFF000000#32, 0xFFFFFFFF#32⟩
  | .subiu _ _ _ => ⟨"SUBIU", 0x06000000#32, 0xFF000000#32, 0xFFFFFFFF#32⟩
  | .mul _ _ _ => ⟨"MUL", 0x07000000#32, 0xFF000000#32, 0xFFFFF000#32⟩
  | .muli _ _ _ => ⟨"MULI", 0x08000000#32, 0xFF000000#32, 0xFFFFFFFF#32⟩
  | .muliu _ _ _ => ⟨"MULIU", 0x09000000#32, 0xFF000000#32, 0xFFFFFFFF#32⟩
  | .div _ _ _ => ⟨"DIV", 0x0A000000#32, 0xFF000000#32, 0xFFFFF000#32⟩
  | .divi _ _ _ => ⟨"DIVI", 0x0B000000#32, 0xFF000000#32, 0xFFFFFFFF#32⟩
  | .diviu _ _ _ => ⟨"DIVIU", 0x0C000000#32, 0xFF000000#32, 0xFFFFFFFF#32⟩
  | .mod _ _ _ => ⟨"MOD", 0x0D000000#32, 0xFF000000#32, 0xFFFFF000#32⟩
  | .modi _ _ _ => ⟨"MODI", 0x0E000000#32, 0xFF000000#32, 0xFFFFFFFF#32⟩
  | .modiu _ _ _ => ⟨"MODIU", 0x0F000000#32, 0xFF000000#32, 0xFFFFFFFF#32⟩
  | .shl _ _ _ => ⟨"SHL", 0x10000000#32, 0xFF000000#32, 0xFFFFF000#32⟩
  | .shli _ _ _ => ⟨"SHLI", 0x11000000#32, 0xFF000000#32, 0xFFFFFFFF#32⟩
  | .slr _ _ _ => ⟨"SLR", 0x12000000#32, 0xFF000000#32, 0xFFFFF000#32⟩
  | .slri _ _ _ => ⟨"SLRI", 0x13000000#32, 0xFF000000#32, 0xFFFFFFFF#32⟩
  | .sar _ _ _ => ⟨"SAR", 0x14000000#32, 0xFF000000#32, 0xFFFFF000#32⟩
  | .sari _ _ _ => ⟨"SARI", 0x15000000#32, 0xFF000000#32, 0xFFFFFFFF#32⟩
  | .and _ _ _ => ⟨"AND", 0x16000000#32, 0xFF000000#32, 0xFFFFF000#32⟩
  | .or _ _ _ => ⟨"OR", 0x17000000#32, 0xFF000000#32, 0xFFFFF000#32⟩
  | .xor _ _ _ => ⟨"XOR", 0x18000000#32, 0xFF000000#32, 0xFFFFF000#32⟩
  | .not _ _ => ⟨"NOT", 0x19000000#32, 0xFF000000#32, 0xFFFF0000#32⟩
  | .eq _ _ _ => ⟨"EQ", 0x1A000000#32, 0xFF000000#32, 0xFFFFF000#32⟩
  | .ne _ _ _ => ⟨"NE", 0x1B000000#32, 0xFF000000#32, 0xFFFFF000#32⟩
  | .lt _ _ _ => ⟨"LT", 0x1C000000#32, 0xFF000000#32, 0xFFFFF000#32⟩
  | .ltu _ _ _ => ⟨"LTU", 0x1D000000#32, 0xFF000000#32, 0xFFFFF000#32⟩
  | .gt _ _ _ => ⟨"GT", 0x1E000000#32, 0xFF000000#32, 0xFFFFF000#32⟩
  | .gtu _ _ _ => ⟨"GTU", 0x1F000000#32, 0xFF000000#32, 0xFFFFF000#32⟩
  | .le _ _ _ => ⟨"LE", 0x20000000#32, 0xFF000000#32, 0xFFFFF000#32⟩
  | .leu _ _ _ => ⟨"LEU", 0x21000000#32, 0xFF000000#32, 0xFFFFF000#32⟩
  | .ge _ _ _ => ⟨"GE", 0x22000000#32, 0xFF000000#32, 0xFFFFF000#32⟩
  | .geu _ _ _ => ⟨"GEU", 0x23000000#32, 0xFF000000#32, 0xFFFFF000#32⟩
  | .b _ => ⟨"B", 0x24000000#32, 0xFF000000#32, 0xFF00FFFF#32⟩
  | .be _ _ _ => ⟨"BE", 0x25000000#32, 0xFF000000#32, 0xFFFFFFFF#32⟩
  | .bne _ _ _ => ⟨"BNE", 0x26000000#32, 0xFF000000#32, 0xFFFFFFFF#32⟩
  | .bnez _ _ => ⟨"BNEZ", 0x26000000#32, 0xFF0F0000#32, 0xFFFFFFFF#32⟩
  | .blt _ _ _ => ⟨"BLT", 0x27000000#32, 0xFF000000#32, 0xFFFFFFFF#32⟩
  | .bgt _ _ _ => ⟨"BGT", 0x28000000#32, 0xFF000000#32, 0xFFFFFFFF#32⟩
  | .j _ => ⟨"J", 0x29000000#32, 0xFF000000#32, 0xFFFFFFFF#32⟩
  | .jr _ => ⟨"JR", 0x2A000000#32, 0xFF000000#32, 0xFFF00000#32⟩
  | .call _ => ⟨"CALL", 0x2B000000#32, 0xFF000000#32, 0xFFF00000#32⟩
  | .ret => ⟨"RET", 0x2C000000#32, 0xFF000000#32, 0xFF000000#32⟩
  | .lw _ _ _ => ⟨"LW", 0x2D000000#32, 0xFF000000#32, 0xFFFFFFFF#32⟩
  | .lh _ _ _ => ⟨"LH", 0x2E000000#32, 0xFF000000#32, 0xFFFFFFFF#32⟩
  | .lb _ _ _ => ⟨"LB", 0x2F000000#32, 0xFF000000#32, 0xFFFFFFFF#32⟩
  | .lf _ _ _ => ⟨"LF", 0x30000000#32, 0xFF000000#32, 0xFFFFFFFF#32⟩
  | .li _ _ => ⟨"LI", 0x31000000#32, 0xFF000000#32, 0xFFF0FFFF#32⟩
  | .liu _ _ => ⟨"LIU", 0x32000000#32, 0xFF000000#32, 0xFFF0FFFF#32⟩
  | .lih _ _ => ⟨"LIH", 0x33000000#32, 0xFF000000#32, 0xFFF0FFFF#32⟩
  | .sw _ _ _ => ⟨"SW", 0x34000000#32, 0xFF000000#32, 0xFFFFFFFF#32⟩
  | .sh _ _ _ => ⟨"SH", 0x35000000#32, 0xFF000000#32, 0xFFFFFFFF#32⟩
  | .sb _ _ _ => ⟨"SB", 0x36000000#32, 0xFF000000#32, 0xFFFFFFFF#32⟩
  | .sf _ _ _ => ⟨"SF", 0x37000000#32, 0xFF000000#32, 0xFFFFFFFF#32⟩
  | .popw _ => ⟨"POPW", 0x38000000#32, 0xFF000000#32, 0xFFF00000#32⟩
  | .poph _ => ⟨"POPH", 0x39000000#32, 0xFF000000#32, 0xFFF00000#32⟩
  | .popb _ => ⟨"POPB", 0x3A000000#32, 0xFF000000#32, 0xFFF00000#32⟩
  | .popf _ => ⟨"POPF", 0x3B000000#32, 0xFF000000#32, 0xFFF00000#32⟩
  | .popa _ => ⟨"POPA", 0x3C000000#32, 0xFF000000#32, 0xFFF00000#32⟩
  | .pshw _ => ⟨"PSHW", 0x3D000000#32, 0xFF000000#32, 0xFFF00000#32⟩
  | .pshh _ => ⟨"PSHH", 0x3E000000#32, 0xFF000000#32, 0xFFF00000#32⟩
  | .pshb _ => ⟨"PSHB", 0x3F000000#32, 0xFF000000#32, 0xFFF00000#32⟩
  | .pshf _ => ⟨"PSHF", 0x40000000#32, 0xFF000000#32, 0xFFF00000#32⟩
  | .psha _ => ⟨"PSHA", 0x41000000#32, 0xFF000000#32, 0xFFF00000#32⟩
  | .addf _ _ _ => ⟨"ADDF", 0x66000000#32, 0xFE000000#32, 0xFFFF0000#32⟩
  | .subf _ _ _ => ⟨"SUBF", 0x68000000#32, 0xFE000000#32, 0xFFFF0000#32⟩
  | .mulf _ _ _ => ⟨"MULF", 0x6A000000#32, 0xFE000000#32, 0xFFFF0000#32⟩
  | .divf _ _ _ => ⟨"DIVF", 0x6C000000#32, 0xFE000000#32, 0xFFFF0000#32⟩
  | .eqf _ _ _ => ⟨"EQF", 0x6E000000#32, 0xFE000000#32, 0xFFFF0000#32⟩
  | .nef _ _ _ => ⟨"NEF", 0x70000000#32, 0xFE000000#32, 0xFFFF0000#32⟩
  | .ltf _ _ _ => ⟨"LTF", 0x72000000#32, 0xFE000000#32, 0xFFFF0000#32⟩
  | .gtf _ _ _ => ⟨"GTF", 0x74000000#32, 0xFE000000#32, 0xFFFF0000#32⟩
  | .lef _ _ _ => ⟨"LEF", 0x76000000#32, 0xFE000000#32, 0xFFFF0000#32⟩
  | .gef _ _ _ => ⟨"GEF", 0x78000000#32, 0xFE000000#32, 0xFFFF0000#32⟩
  | .pow _ _ _ => ⟨"POW", 0x7A000000#32, 0xFE000000#32, 0xFFFF0000#32⟩
  | .fabs _ _ => ⟨"FABS", 0x7C000000#32, 0xFE000000#32, 0xFFF80000#32⟩
  | .log _ _ => ⟨"LOG", 0x7E000000#32, 0xFE000000#32, 0xFFF80000#32⟩
  | .logt _ _ => ⟨"LOGT", 0x80000000#32, 0xFE000000#32, 0xFFF80000#32⟩
  | .exp _ _ => ⟨"EXP", 0x82000000#32, 0xFE000000#32, 0xFFF80000#32⟩
  | .flor _ _ => ⟨"FLOR", 0x84000000#32, 0xFE000000#32, 0xFFF80000#32⟩
  | .ceil _ _ => ⟨"CEIL", 0x86000000#32, 0xFE000000#32, 0xFFF80000#32⟩
  | .sin _ _ => ⟨"SIN", 0x88000000#32, 0xFE000000#32, 0xFFF80000#32⟩
  | .cos _ _ => ⟨"COS", 0x8A000000#32, 0xFE000000#32, 0xFFF80000#32⟩
  | .tan _ _ => ⟨"TAN", 0x8C000000#32, 0xFE000000#32, 0xFFF80000#32⟩
  | .asin _ _ => ⟨"ASIN", 0x8E000000#32, 0xFE000000#32, 0xFFF80000#32⟩
  | .acos _ _ => ⟨"ACOS", 0x90000000#32, 0xFE000000#32, 0xFFF80000#32⟩
  | .atan _ _ => ⟨"ATAN", 0x92000000#32, 0xFE000000#32, 0xFFF80000#32⟩
  | .sqrt _ _ => ⟨"SQRT", 0x94000000#32, 0xFE000000#32, 0xFFF80000#32⟩
  | .fmod _ _ _ => ⟨"FMOD", 0x96000000#32, 0xFE000000#32, 0xFFFF0000#32⟩
  | .cif _ _ => ⟨"CIF", 0x98000000#32, 0xFE000000#32, 0xFFF80000#32⟩
  | .cuf _ _ => ⟨"CUF", 0x9A000000#32, 0xFE000000#32, 0xFFF80000#32⟩
  | .cfi _ _ => ⟨"CFI", 0x9C000000#32, 0xFE000000#32, 0xFFF80000#32⟩
  | .cfu _ _ => ⟨"CFU", 0x9E000000#32, 0xFE000000#32, 0xFFF80000#32⟩
  | .idle => ⟨"IDLE", 0xFE000000#32, 0xFFC00000#32, 0xFFC00000#32⟩
  | .cli _ => ⟨"CLI", 0xFE480000#32, 0xFFF80000#32, 0xFFFF0000#32⟩
  | .sti => ⟨"STI", 0xFE500000#32, 0xFFF80000#32, 0xFFF80000#32⟩
  | .lusp _ => ⟨"LUSP", 0xFE880000#32, 0xFFF80000#32, 0xFFFF0000#32⟩
  | .susp _ => ⟨"SUSP", 0xFE900000#32, 0xFFF80000#32, 0xFFFF0000#32⟩
  | .iret => ⟨"IRET", 0xFEC00000#32, 0xFFC00000#32, 0xFFC00000#32⟩
  | .bin _ => ⟨"BIN", 0xFF080000#32, 0xFFF80000#32, 0xFFFF0000#32⟩
  | .bout _ => ⟨"BOUT", 0xFF100000#32, 0xFFF80000#32, 0xFFFF0000#32⟩
  | .trap => ⟨"TRAP", 0xFF800000#32, 0xFFC00000#32, 0xFFC00000#32⟩
  | .stiv _ => ⟨"STIV", 0xFFC00000#32, 0xFFF80000#32, 0xFFFF0000#32⟩
  | .stpd _ => ⟨"STPD", 0xFFC80000#32, 0xFFF80000#32, 0xFFFF0000#32⟩
  | .stpg _ => ⟨"STPG", 0xFFD00000#32, 0xFFF80000#32, 0xFFFF0000#32⟩
  | .stto _ => ⟨"STTO", 0xFFD80000#32, 0xFFF80000#32, 0xFFFF0000#32⟩
  | .lvad _ => ⟨"LVAD", 0xFFE00000#32, 0xFFF80000#32, 0xFFFF0000#32⟩
  | .halt => ⟨"HALT", 0xFFFFFFFF#32, 0xFFFFFFFF#32, 0xFFFFFFFF#32⟩
  | .lmsz _ => ⟨"LMSZ", 0xFF480000#32, 0xFFF80000#32, 0xFFFF0000#32⟩
  | .mcpy _ _ _ => ⟨"MCPY", 0xFF500000#32, 0xFFF80000#32, 0xFFFFFC00#32⟩
  | .mcmp _ _ _ => ⟨"MCMP", 0xFF580000#32, 0xFFF80000#32, 0xFFFFFC00#32⟩
  | .mchr _ _ _ => ⟨"MCHR", 0xFF600000#32, 0xFFF80000#32, 0xFFFFFC00#32⟩
  | .mset _ _ _ => ⟨"MSET", 0xFF680000#32, 0xFFF80000#32, 0xFFFFFC00#32⟩

/-- One instruction of each row, in the table's order, its operands zero. -/
def rowSamples : List Instr :=
  [.nop, .add 0 0 0, .addi 0 0 0, .addiu 0 0 0, .sub 0 0 0, .subi 0 0 0, .subiu 0 0 0, .mul 0 0 0,
   .muli 0 0 0, .muliu 0 0 0, .div 0 0 0, .divi 0 0 0, .diviu 0 0 0, .mod 0 0 0, .modi 0 0 0, .modiu 0 0 0,
   .shl 0 0 0, .shli 0 0 0, .slr 0 0 0, .slri 0 0 0, .sar 0 0 0, .sari 0 0 0, .and 0 0 0, .or 0 0 0,
   .xor 0 0 0, .not 0 0, .eq 0 0 0, .ne 0 0 0, .lt 0 0 0, .ltu 0 0 0] ++
  [.gt 0 0 0, .gtu 0 0 0, .le 0 0 0, .leu 0 0 0, .ge 0 0 0, .geu 0 0 0, .b 0, .be 0 0 0, .bne 0 0 0,
   .bnez 0 0, .blt 0 0 0, .bgt 0 0 0, .j 0, .jr 0, .call 0, .ret, .lw 0 0 0, .lh 0 0 0, .lb 0 0 0, .lf 0 0 0,
   .li 0 0, .liu 0 0, .lih 0 0, .sw 0 0 0, .sh 0 0 0, .sb 0 0 0, .sf 0 0 0, .popw 0, .poph 0, .popb 0] ++
  [.popf 0, .popa 0, .pshw 0, .pshh 0, .pshb 0, .pshf 0, .psha 0, .addf 0 0 0, .subf 0 0 0, .mulf 0 0 0,
   .divf 0 0 0, .eqf 0 0 0, .nef 0 0 0, .ltf 0 0 0, .gtf 0 0 0, .lef 0 0 0, .gef 0 0 0, .pow 0 0 0,
   .fabs 0 0, .log 0 0, .logt 0 0, .exp 0 0, .flor 0 0, .ceil 0 0, .sin 0 0, .cos 0 0, .tan 0 0, .asin 0 0,
   .acos 0 0, .atan 0 0] ++
  [.sqrt 0 0, .fmod 0 0 0, .cif 0 0, .cuf 0 0, .cfi 0 0, .cfu 0 0, .idle, .cli 0, .sti, .lusp 0, .susp 0,
   .iret, .bin 0, .bout 0, .trap, .stiv 0, .stpd 0, .stpg 0, .stto 0, .lvad 0, .halt, .lmsz 0, .mcpy 0 0 0,
   .mcmp 0 0 0, .mchr 0 0 0, .mset 0 0 0]

/-- The 116 rows of the opcode table (00_scope.md R4). -/
def opcodeTable : List OpcodeRow := rowSamples.map opcodeRow

end Sys2Proof.Machine
end

