-- ==== Sys2Proof/Safety.lean ====
section
/-! DEFINITION. The terms in which statements are made: what an instruction changes and what it leaves alone (read
through the register and memory accessors), when an access is allowed, what a legal state is, and what a correctly
rounded result is. Nothing here is used by the machine. -/

namespace Sys2Proof.Machine

/-! ## Frames -/

/-- Every byte of memory reads as before. -/
def SameMem (s t : State) : Prop :=
  ∀ a, Memory.read t.mem a = Memory.read s.mem a

/-- Every byte of memory reads as before, but the `n` bytes from `d` on (wrapped, 00_scope.md R13). -/
def SameMemBut (s t : State) (d : Word) (n : Nat) : Prop :=
  ∀ a, (∀ k, k < n → a ≠ (wrapAddr d k).toNat) → Memory.read t.mem a = Memory.read s.mem a

/-- The system registers of 10_state.md R40 are as before. -/
structure SameSystem (s t : State) : Prop where
  iena : t.iena = s.iena
  usp : t.usp = s.usp
  ivec : t.ivec = s.ivec
  pdir : t.pdir = s.pdir
  pg : t.pg = s.pg
  tout : t.tout = s.tout
  vadr : t.vadr = s.vadr
  memsz : t.memsz = s.memsz

/-- The console, the run state and the parameters are as before (10_state.md R51, R52; 00_scope.md R7). -/
structure SameOutside (s t : State) : Prop where
  consoleIn : t.consoleIn = s.consoleIn
  consoleOut : t.consoleOut = s.consoleOut
  halted : t.halted = s.halted
  params : t.params = s.params

/-- The registers are as before, but the indexed registers `xs` and the floating-point registers `fs`. -/
structure SameRegs (s t : State) (xs fs : List Reg) : Prop where
  x : ∀ q, q ∉ xs → t.readX q = s.readX q
  f : ∀ q, q ∉ fs → t.readF q = s.readF q

/-- All state is as before but the pc, the registers named, and the model's counter of free values. -/
structure OnlyRegs (s t : State) (xs fs : List Reg) : Prop where
  regs : SameRegs s t xs fs
  mem : SameMem s t
  system : SameSystem s t
  outside : SameOutside s t

/-- The pc moves on to the next instruction (00_scope.md R12, `next`). -/
def NextPc (s t : State) : Prop := t.pc = s.pc + 4#32

/-- `x[ra] <- v; next`, and nothing else: R0 keeps reading as zero (10_state.md R32). -/
structure WritesX (s t : State) (ra : Reg) (v : Word) : Prop where
  only : OnlyRegs s t [ra] []
  result : t.readX ra = if ra = 0 then 0#32 else v
  pc : NextPc s t
  draws : t.draws = s.draws

/-- `x[ra] <- unspecified; next`, and nothing else: one free value is drawn, nothing is said of it. -/
structure DrawsX (s t : State) (ra : Reg) : Prop where
  only : OnlyRegs s t [ra] []
  zero : ra = 0 → t.readX ra = 0#32
  pc : NextPc s t
  draws : t.draws = s.draws + 1

/-- `f[fa] <- v; next`, and nothing else. -/
structure WritesF (s t : State) (fa : Reg) (v : Long) : Prop where
  only : OnlyRegs s t [] [fa]
  result : t.readF fa = v
  pc : NextPc s t
  draws : t.draws = s.draws

/-- Some NaN goes to `f[fa]` (45_float.md R261), `next`, and nothing else: one free value is drawn. -/
structure WritesNan (s t : State) (fa : Reg) : Prop where
  only : OnlyRegs s t [] [fa]
  result : FP.isNan (t.readF fa) = true
  pc : NextPc s t
  draws : t.draws = s.draws + 1

/-- The result of a floating-point operation is written; `none` is an unspecified NaN. -/
def WritesFp (s t : State) (fa : Reg) : Option Long → Prop
  | some v => WritesF s t fa v
  | none => WritesNan s t fa

/-- Control goes to `a` and nothing else changes. -/
structure JumpsTo (s t : State) (a : Word) : Prop where
  only : OnlyRegs s t [] []
  pc : t.pc = a
  draws : t.draws = s.draws

/-- Control goes to `a` if the condition holds, else to the next instruction; nothing else changes. -/
def BranchesTo (s t : State) (taken : Prop) (a : Word) : Prop :=
  (taken → JumpsTo s t a) ∧ (¬ taken → JumpsTo s t (s.pc + 4#32))

/-- The bytes `bs` stand at `d`, `d + 1`, … (wrapped), every other byte is as before, the registers but `xs` are as
before, and the system registers, the console, the run state and the parameters too. -/
structure StoresBytes (s t : State) (d : Word) (bs : List Byte) (xs : List Reg) : Prop where
  stored : ∀ k (h : k < bs.length), Memory.read t.mem (wrapAddr d k).toNat = bs[k]
  others : SameMemBut s t d bs.length
  regs : SameRegs s t xs []
  system : SameSystem s t
  outside : SameOutside s t
  pc : NextPc s t

/-! ## Memory as values (20_memory.md R71) -/

/-- The byte `k` places after `a`, wrapped. -/
def State.byteFrom (s : State) (a : Word) (k : Nat) : Byte :=
  Memory.read s.mem (wrapAddr a k).toNat

/-- Two bytes, the first the least significant. -/
def State.halfAt (s : State) (a : Word) : Half := s.byteFrom a 1 ++ s.byteFrom a 0

/-- Four bytes, the first the least significant. -/
def State.wordAt (s : State) (a : Word) : Word :=
  s.byteFrom a 3 ++ s.byteFrom a 2 ++ s.byteFrom a 1 ++ s.byteFrom a 0

/-- Eight bytes, the first the least significant. -/
def State.longAt (s : State) (a : Word) : Long :=
  s.byteFrom a 7 ++ s.byteFrom a 6 ++ s.byteFrom a 5 ++ s.byteFrom a 4 ++
    s.byteFrom a 3 ++ s.byteFrom a 2 ++ s.byteFrom a 1 ++ s.byteFrom a 0

/-- The low byte, then the next. -/
def bytesOfHalf (v : Half) : List Byte := [v.extractLsb' 0 8, v.extractLsb' 8 8]

/-- The low byte first. -/
def bytesOfWord (v : Word) : List Byte :=
  [v.extractLsb' 0 8, v.extractLsb' 8 8, v.extractLsb' 16 8, v.extractLsb' 24 8]

/-- The low byte first. -/
def bytesOfLong (v : Long) : List Byte :=
  [v.extractLsb' 0 8, v.extractLsb' 8 8, v.extractLsb' 16 8, v.extractLsb' 24 8,
    v.extractLsb' 32 8, v.extractLsb' 40 8, v.extractLsb' 48 8, v.extractLsb' 56 8]

/-! ## Accesses (20_memory.md R76, R80, R90) -/

/-- The address meets R76: a multiple of the size, or MISALIGNED_DATA = bytewise. -/
def State.AlignedFor (s : State) (a : Word) (n : Nat) : Prop :=
  s.params.misalignedData = .bytewise ∨ a.toNat % n = 0

/-- Each of the `n` byte addresses from `a` on, wrapped, lies below MEMSZ (R80). -/
def State.InMemory (s : State) (a : Word) (n : Nat) : Prop :=
  ∀ k, k < n → (wrapAddr a k).toNat < s.memsz

/-- None of the `n` bytes lies in declared code while stores to declared code fault (R90). -/
def State.NotCode (s : State) (a : Word) (n : Nat) : Prop :=
  s.params.ifetchCoherent = .faultOnStoreToCode → ∀ k, k < n → ∀ r ∈ s.params.codeRegions,
    ¬ (r.base ≤ (wrapAddr a k).toNat ∧ (wrapAddr a k).toNat < r.base + r.size)

/-- The bytes may be stored to (R80, R90). -/
def State.Storable (s : State) (a : Word) (n : Nat) : Prop :=
  s.InMemory a n ∧ s.NotCode a n

/-- The two ranges of `n` bytes share a byte address (48_memory_block.md R342). -/
def SharesByte (d src : Word) (n : Nat) : Prop :=
  ∃ j k, j < n ∧ k < n ∧ wrapAddr d j = wrapAddr src k

/-! ## Legal states -/

/-- What every step keeps: memory in its canonical form and within MEMSZ, the stored slot of R0 zero (R32), and
MEMSZ a multiple of 8 that is at most 2^32 (70_reset_and_hazards.md R451). -/
structure State.Valid (s : State) : Prop where
  wf : Memory.wf s.mem
  range : ∀ c ∈ s.mem, c.1 < s.memsz
  zero : s.x[0] = 0#32
  size : s.memsz % 8 = 0 ∧ s.memsz ≤ 2 ^ 32

/-- The premises of R451 on PG and TO, where STPG and STTO are refused (47_system.md R321, R322). -/
structure State.PgToPremises (s : State) : Prop where
  refuses : s.params.pgToWrite = .refuse
  pg : s.pg = 0#32
  tout : s.tout = 0#32

/-- The premises of R451 on the control registers, in the default model, which refuses STI, STPG and STTO. -/
structure State.DefaultPremises (s : State) : Prop where
  pgTo : s.PgToPremises
  refuses : s.params.stiWrite = .refuse
  iena : s.iena = 0#1

/-- The pc and the four bytes there allow a fetch (20_memory.md R77, R80). -/
def State.Fetchable (s : State) : Prop :=
  s.pc.toNat % 4 = 0 ∧ s.InMemory s.pc 4

/-- The machine runs, and addresses are used directly (R52, R86). -/
def State.Running (s : State) : Prop :=
  s.halted = false ∧ s.pg = 0#32

/-- The outcome with its next state, if it has one, changed by `g`. -/
def mapNext (g : State → State) : Out → Out
  | .next t => .next (g t)
  | .fault r => .fault r
  | .refused r => .refused r

/-! ## Kinds of instructions -/

/-- The old-style tables, opcode7 from 0110011 on (30_encoding.md R100, R112 to R114). -/
def oldStyle (i : Instr) : Bool := decide (0x66000000 ≤ (opcodeRow i).pattern.toNat)

/-- The instructions that write memory (20_memory.md R74; 44_stack.md R241). -/
def storesMemory (i : Instr) : Bool :=
  decide ((opcodeRow i).mnemonic ∈ ["SW", "SH", "SB", "SF", "PSHW", "PSHF", "MCPY", "MSET"])

/-- The indexed registers an instruction can write: its destination field (10_state.md R31), SP for the stack
instructions of the candidate (44_stack.md R241), the three registers a block instruction names (48_memory_block.md
R340). -/
def xTargets : Instr → List Reg
  | .add r _ _ | .addi r _ _ | .addiu r _ _ | .sub r _ _ | .subi r _ _ | .subiu r _ _ | .mul r _ _
  | .muli r _ _ | .muliu r _ _ | .div r _ _ | .divi r _ _ | .diviu r _ _ | .mod r _ _ | .modi r _ _
  | .modiu r _ _ | .shl r _ _ | .shli r _ _ | .slr r _ _ | .slri r _ _ | .sar r _ _ | .sari r _ _ | .and r _ _
  | .or r _ _ | .xor r _ _ | .not r _ | .eq r _ _ | .ne r _ _ | .lt r _ _ | .ltu r _ _ | .gt r _ _ | .gtu r _ _
  | .le r _ _ | .leu r _ _ | .ge r _ _ | .geu r _ _ | .lw r _ _ | .lh r _ _ | .lb r _ _ | .li r _ | .liu r _
  | .lih r _ | .cfi r _ | .cfu r _ | .cli r | .lusp r | .bin r | .lvad r | .lmsz r => [r]
  | .popw r => [r, spIndex]
  | .popf _ | .pshw _ | .pshf _ => [spIndex]
  | .mcpy ra rb rc | .mset ra rb rc => [ra, rb, rc]
  | .nop | .b _ | .be _ _ _ | .bne _ _ _ | .bnez _ _ | .blt _ _ _ | .bgt _ _ _ | .j _ | .jr _ | .call _ | .ret
  | .lf _ _ _ | .sw _ _ _ | .sh _ _ _ | .sb _ _ _ | .sf _ _ _ | .poph _ | .popb _ | .popa _ | .pshh _ | .pshb _
  | .psha _ | .addf _ _ _ | .subf _ _ _ | .mulf _ _ _ | .divf _ _ _ | .eqf _ _ _ | .nef _ _ _ | .ltf _ _ _
  | .gtf _ _ _ | .lef _ _ _ | .gef _ _ _ | .pow _ _ _ | .fabs _ _ | .log _ _ | .logt _ _ | .exp _ _ | .flor _ _
  | .ceil _ _ | .sin _ _ | .cos _ _ | .tan _ _ | .asin _ _ | .acos _ _ | .atan _ _ | .sqrt _ _ | .fmod _ _ _
  | .cif _ _ | .cuf _ _ | .idle | .sti | .susp _ | .iret | .bout _ | .trap | .stiv _ | .stpd _ | .stpg _
  | .stto _ | .halt | .mcmp _ _ _ | .mchr _ _ _ => []

/-- The floating-point registers an instruction can write: its destination field. -/
def fTargets : Instr → List Reg
  | .lf r _ _ | .popf r | .addf r _ _ | .subf r _ _ | .mulf r _ _ | .divf r _ _ | .eqf r _ _ | .nef r _ _
  | .ltf r _ _ | .gtf r _ _ | .lef r _ _ | .gef r _ _ | .pow r _ _ | .fabs r _ | .log r _ | .logt r _
  | .exp r _ | .flor r _ | .ceil r _ | .sin r _ | .cos r _ | .tan r _ | .asin r _ | .acos r _ | .atan r _
  | .sqrt r _ | .fmod r _ _ | .cif r _ | .cuf r _ => [r]
  | .nop | .add _ _ _ | .addi _ _ _ | .addiu _ _ _ | .sub _ _ _ | .subi _ _ _ | .subiu _ _ _ | .mul _ _ _
  | .muli _ _ _ | .muliu _ _ _ | .div _ _ _ | .divi _ _ _ | .diviu _ _ _ | .mod _ _ _ | .modi _ _ _
  | .modiu _ _ _ | .shl _ _ _ | .shli _ _ _ | .slr _ _ _ | .slri _ _ _ | .sar _ _ _ | .sari _ _ _ | .and _ _ _
  | .or _ _ _ | .xor _ _ _ | .not _ _ | .eq _ _ _ | .ne _ _ _ | .lt _ _ _ | .ltu _ _ _ | .gt _ _ _ | .gtu _ _ _
  | .le _ _ _ | .leu _ _ _ | .ge _ _ _ | .geu _ _ _ | .b _ | .be _ _ _ | .bne _ _ _ | .bnez _ _ | .blt _ _ _
  | .bgt _ _ _ | .j _ | .jr _ | .call _ | .ret | .lw _ _ _ | .lh _ _ _ | .lb _ _ _ | .li _ _ | .liu _ _
  | .lih _ _ | .sw _ _ _ | .sh _ _ _ | .sb _ _ _ | .sf _ _ _ | .popw _ | .poph _ | .popb _ | .popa _ | .pshw _
  | .pshh _ | .pshb _ | .pshf _ | .psha _ | .cfi _ _ | .cfu _ _ | .idle | .cli _ | .sti | .lusp _ | .susp _
  | .iret | .bin _ | .bout _ | .trap | .stiv _ | .stpd _ | .stpg _ | .stto _ | .lvad _ | .halt | .lmsz _
  | .mcpy _ _ _ | .mcmp _ _ _ | .mchr _ _ _ | .mset _ _ _ => []

/-! ## Division (41_arith_logic.md R153) -/

/-- Quotient and remainder of R153: the remainder is smaller than the divisor, and is zero or has the sign of the
dividend (truncate) or of the divisor (floor). -/
structure IsDivision (c : DivConvention) (a b q r : Int) : Prop where
  exact : a = b * q + r
  small : r.natAbs < b.natAbs
  sign : r = 0 ∨ (0 < r ↔ 0 < (match c with | .truncate => a | .floor => b))

/-! ## Answers of families -/

/-- A quotient instruction and its remainder instruction on a dividend `a` and a divisor `b` that have a result. -/
def DividesTo (s : State) (quo rem : Instr) (ra : Reg) (a b : Word) : Prop :=
  b ≠ 0#32 → ¬ (a = 0x80000000#32 ∧ b = 0xFFFFFFFF#32) →
    ∃ q r : Int, IsDivision s.params.divConvention a.toInt b.toInt q r ∧
      (∃ t, exec quo s = .next t ∧ WritesX s t ra (BitVec.ofInt 32 q)) ∧
      (∃ t, exec rem s = .next t ∧ WritesX s t ra (BitVec.ofInt 32 r))

/-- What an operation without a result does by its parameter: the outcome `k`, or some value in `ra`. -/
def Undefined (s : State) (i : Instr) (u : UndefinedResult) (ra : Reg) (k : ArithKind) : Prop :=
  (u = .fault → exec i s = .fault (.arithUndefined k)) ∧
    (u = .anyValue → ∃ t, exec i s = .next t ∧ DrawsX s t ra)

/-- A shift by `n`: the value `v` for an amount up to 32, no result above (R154). -/
def ShiftsTo (s : State) (i : Instr) (ra : Reg) (n : Nat) (v : Word) : Prop :=
  (n ≤ 32 → ∃ t, exec i s = .next t ∧ WritesX s t ra v) ∧
    (32 < n → Undefined s i s.params.shiftUndefined ra .shiftRange)

/-- The two ways a data access of `n` bytes at `a` stops, alignment first (60_exceptions.md R406). -/
def AccessStops (s : State) (i : Instr) (a : Word) (n : Nat) (k : Access) (allowed : Prop) : Prop :=
  (¬ s.AlignedFor a n → exec i s = .fault (.misaligned a n k)) ∧
    (s.AlignedFor a n → ¬ allowed → exec i s = .fault (.accessFault a n k))

/-- An instruction with one floating-point source: whatever record is in force, it completes and writes one function
of the operand pattern alone (45_float.md R264). -/
def DependsOnOperand (i : Reg → Reg → Instr) : Prop :=
  ∀ c : FpSetting, ∃ g : Long → Long, ∀ (s : State) (fa fb : Reg), s.params.fp = c →
    ∃ t, exec (i fa fb) s = .next t ∧ WritesF s t fa (g (s.readF fb))

/-! ## Correct rounding (45_float.md R261) -/

/-- Twice the magnitude, in units of 2^-1074, from which a rounded magnitude is 2^1024 or more: halfway between the
greatest finite number and 2^1024. -/
def FP.overflowHalf : Nat := 2 ^ 2099 - 2 ^ 2045

/-- `p` is the magnitude `num / den` (in units of 2^-1074) with the sign `neg`, rounded to nearest, ties to even:
it is the infinity exactly from the overflow threshold on; otherwise no finite number is nearer, and one of another
magnitude that is as near leaves `p` the even one. -/
structure FP.IsNearest (neg : Bool) (num den : Nat) (p : Long) : Prop where
  sign : FP.sign p = neg
  notNan : FP.isNan p = false
  overflow : FP.isInf p = true ↔ FP.overflowHalf * den ≤ 2 * num
  nearest : FP.isFinite p = true → ∀ q, FP.isFinite q = true →
    ((FP.mag p * den : Int) - num).natAbs ≤ ((FP.mag q * den : Int) - num).natAbs
  even : FP.isFinite p = true → ∀ q, FP.isFinite q = true → FP.mag q ≠ FP.mag p →
    ((FP.mag p * den : Int) - num).natAbs = ((FP.mag q * den : Int) - num).natAbs → FP.frac p % 2 = 0

end Sys2Proof.Machine
end

