-- ==== Sys2Proof/Certificates/Slice0/Obligations.lean ====
section
/-! DEFINITION. The statements for the provers. Each docstring says what it claims and the rules of spec/ it rests on;
the words it is made of are in Sys2Proof/Safety.lean and Sys2Proof/Machine/Table.lean. -/

open Sys2Proof Sys2Proof.Machine

/-- Decoding an encoded well-formed instruction gives it back, BNEZ as BNE with rb = R0 (30_encoding.md R101,
R102, R103, R104, R105, R106, R111, R112, R113, R114, R122). -/
def Obligations.DecodeEncodeAgree : Prop :=
  ∀ i : Instr, WellFormed i = true → decode (encode i) = .ok i.core

/-- A decoded instruction is well formed and encodes to the bits of the word its row uses (30_encoding.md R107,
R110, R115). -/
def Obligations.DecodedInstructionsReencode : Prop :=
  ∀ (w : Word) (i : Instr), decode w = .ok i →
    WellFormed i = true ∧ i.core = i ∧ encode i = w &&& (opcodeRow i).used ∧ decode (encode i) = .ok i

/-- A decoder ignores the unused bits and an assembler writes them as zero; NOP and HALT are whole words (R107).
-/
def Obligations.UnusedBitsAreIgnored : Prop :=
  (∀ (w v : Word) (i : Instr), decode w = .ok i →
      v &&& (opcodeRow i).used = w &&& (opcodeRow i).used → decode v = .ok i) ∧
    (∀ i : Instr, WellFormed i = true → encode i &&& ~~~(opcodeRow i).used = 0#32) ∧
    (opcodeRow .nop).used = 0xFFFFFFFF#32 ∧ (opcodeRow .halt).used = 0xFFFFFFFF#32

/-- A word decodes exactly when a row of the opcode table matches it, and to an instruction of a matching row
(30_encoding.md R115, R116). -/
def Obligations.DecodeFollowsOpcodeTable : Prop :=
  (∀ (w : Word) (i : Instr), decode w = .ok i → (opcodeRow i).covers w = true) ∧
    ∀ w : Word, (∃ e, decode w = .error e) ↔ ∀ r ∈ opcodeTable, r.covers w = false

/-- No word matches two rows of the opcode table, but for the alias BNEZ of BNE (30_encoding.md R115, R122). -/
def Obligations.OpcodeRowsDoNotOverlap : Prop :=
  ∀ (w : Word), ∀ r ∈ opcodeTable, ∀ q ∈ opcodeTable, r.covers w = true → q.covers w = true →
    r = q ∨ (r.mnemonic ∈ ["BNE", "BNEZ"] ∧ q.mnemonic ∈ ["BNE", "BNEZ"])

/-- Words written out from the encodings decode to their instructions (30_encoding.md R111, R112, R113, R114,
R119). -/
def Obligations.SampleWordsDecode : Prop :=
  decode 0x01123000#32 = .ok (.add 1 2 3) ∧ decode 0x2D1C0008#32 = .ok (.lw 1 12 8#16) ∧
    decode 0x37210008#32 = .ok (.sf 2 1 8#16) ∧ decode 0x29000400#32 = .ok (.j 0x400#24) ∧
    decode 0x66530000#32 = .ok (.addf 1 2 3) ∧ decode 0x9C880000#32 = .ok (.cfi 2 1) ∧
    decode 0xFE920000#32 = .ok (.susp 2) ∧ decode 0xFF514C00#32 = .ok (.mcpy 1 2 3) ∧
    decode 0xFFFFFFFF#32 = .ok .halt

/-- Only the word of zeros is NOP and only the word of ones is HALT; their near misses are illegal (R118, R119).
-/
def Obligations.NopAndHaltAreWholeWords : Prop :=
  (∀ w : Word, (decode w = .ok .nop ↔ w = 0x00000000#32) ∧ (decode w = .ok .halt ↔ w = 0xFFFFFFFF#32)) ∧
    opcodeRow .nop = ⟨"NOP", 0x00000000#32, 0xFFFFFFFF#32, 0xFFFFFFFF#32⟩ ∧
    opcodeRow .halt = ⟨"HALT", 0xFFFFFFFF#32, 0xFFFFFFFF#32, 0xFFFFFFFF#32⟩ ∧
    ∀ w : Word, (w &&& 0xFF000000#32 = 0#32 ∧ w ≠ 0#32) ∨
        (w &&& 0xFFF80000#32 = 0xFFF80000#32 ∧ w ≠ 0xFFFFFFFF#32) →
      (∃ e, decode w = .error e) ∧
      ∀ s : State, s.Running → s.Fetchable → s.wordAt s.pc = w → step s = .fault (.illegalInstruction w)

/-- A step fetches the little-endian word at the pc and runs the instruction it decodes to (60_exceptions.md
R435, 20_memory.md R72). -/
def Obligations.StepRunsDecodedInstruction : Prop :=
  ∀ (s : State) (i : Instr), s.Running → s.Fetchable → decode (s.wordAt s.pc) = .ok i → step s = exec i s

/-- A halted machine, a misaligned or out-of-range pc and an undecodable word stop the step, in that order
(60_exceptions.md R406, R435, 20_memory.md R77, R80, 30_encoding.md R116). The fault `halted` stands for 'no
next step', the model's choice, log 21. -/
def Obligations.StepStopsBeforeExecution : Prop :=
  (∀ s : State, s.halted = true → step s = .fault .halted) ∧
    ∀ s : State, s.Running →
      (s.pc.toNat % 4 ≠ 0 → step s = .fault (.misaligned s.pc 4 .fetch)) ∧
      (s.pc.toNat % 4 = 0 → ¬ s.InMemory s.pc 4 → step s = .fault (.accessFault s.pc 4 .fetch)) ∧
      (s.Fetchable → ∀ e, decode (s.wordAt s.pc) = .error e →
        step s = .fault (.illegalInstruction (s.wordAt s.pc)))

/-- The model's choice (log 5): with PG other than 0 no instruction is fetched (10_state.md R45, 20_memory.md
R86). -/
def Obligations.PgNonzeroStopsStep : Prop :=
  ∀ s : State, s.halted = false → s.pg ≠ 0#32 → step s = .refused .translationNotDescribed

/-- NOP only moves the pc on; HALT only sets halted, after which there is no step (the fault halted, log 21)
(40_control.md R140, 47_system.md R324, 10_state.md R52). -/
def Obligations.NopAndHaltEffects : Prop :=
  ∀ s : State,
    (∃ t, exec .nop s = .next t ∧ JumpsTo s t (s.pc + 4#32)) ∧
    ∃ t, exec .halt s = .next t ∧ t.halted = true ∧ t.pc = s.pc ∧ t.params = s.params ∧ t.draws = s.draws ∧
      SameRegs s t [] [] ∧ SameMem s t ∧ SameSystem s t ∧ t.consoleIn = s.consoleIn ∧
      t.consoleOut = s.consoleOut ∧ step t = .fault .halted

/-- ADD, SUB, MUL and their immediate forms write the 32-bit wrapped result and nothing else (41_arith_logic.md
R150, R151, R155, R156, R157, R158, R159, R160, R161, R162, R163, 10_state.md R32). -/
def Obligations.AddSubMulWrap : Prop :=
  ∀ (s : State) (ra rb rc : Reg) (imm : Half),
    let b := s.readX rb
    let c := s.readX rc
    let si := imm.signExtend 32
    let zi := imm.setWidth 32
    (∃ t, exec (.add ra rb rc) s = .next t ∧ WritesX s t ra (b + c)) ∧
    (∃ t, exec (.addi ra rb imm) s = .next t ∧ WritesX s t ra (b + si)) ∧
    (∃ t, exec (.addiu ra rb imm) s = .next t ∧ WritesX s t ra (b + zi)) ∧
    (∃ t, exec (.sub ra rb rc) s = .next t ∧ WritesX s t ra (b - c)) ∧
    (∃ t, exec (.subi ra rb imm) s = .next t ∧ WritesX s t ra (b - si)) ∧
    (∃ t, exec (.subiu ra rb imm) s = .next t ∧ WritesX s t ra (b - zi)) ∧
    (∃ t, exec (.mul ra rb rc) s = .next t ∧ WritesX s t ra (b * c)) ∧
    (∃ t, exec (.muli ra rb imm) s = .next t ∧ WritesX s t ra (b * si)) ∧
    (∃ t, exec (.muliu ra rb imm) s = .next t ∧ WritesX s t ra (b * zi))

/-- DIV and MOD and their immediate forms write the quotient and the remainder of the convention in force
(41_arith_logic.md R153, R164, R165, R166, R167, R168, R169). -/
def Obligations.DivModResults : Prop :=
  ∀ (s : State) (ra rb rc : Reg) (imm : Half),
    DividesTo s (.div ra rb rc) (.mod ra rb rc) ra (s.readX rb) (s.readX rc) ∧
    DividesTo s (.divi ra rb imm) (.modi ra rb imm) ra (s.readX rb) (imm.signExtend 32) ∧
    DividesTo s (.diviu ra rb imm) (.modiu ra rb imm) ra (s.readX rb) (imm.setWidth 32)

/-- A zero divisor and -2^31 by -1 raise ArithUndefined or write an unspecified value, by DIV_UNDEFINED
(41_arith_logic.md R153, R164, R165, R166, R167, R168, R169). -/
def Obligations.DivModWithoutResult : Prop :=
  ∀ (s : State) (ra rb rc : Reg) (imm : Half),
    (s.readX rc = 0#32 →
      Undefined s (.div ra rb rc) s.params.divUndefined ra .divByZero ∧
      Undefined s (.mod ra rb rc) s.params.divUndefined ra .divByZero) ∧
    (imm = 0#16 →
      Undefined s (.divi ra rb imm) s.params.divUndefined ra .divByZero ∧
      Undefined s (.modi ra rb imm) s.params.divUndefined ra .divByZero ∧
      Undefined s (.diviu ra rb imm) s.params.divUndefined ra .divByZero ∧
      Undefined s (.modiu ra rb imm) s.params.divUndefined ra .divByZero) ∧
    (s.readX rb = 0x80000000#32 → s.readX rc = 0xFFFFFFFF#32 →
      Undefined s (.div ra rb rc) s.params.divUndefined ra .divOverflow ∧
      Undefined s (.mod ra rb rc) s.params.divUndefined ra .divOverflow) ∧
    (s.readX rb = 0x80000000#32 → imm = 0xFFFF#16 →
      Undefined s (.divi ra rb imm) s.params.divUndefined ra .divOverflow ∧
      Undefined s (.modi ra rb imm) s.params.divUndefined ra .divOverflow)

/-- Shifts by 0 to 32 have the stated results, the whole operand being the amount; beyond 32 there is none
(R154). -/
def Obligations.ShiftResults : Prop :=
  (∀ (s : State) (ra rb rc : Reg) (imm : Half),
    let b := s.readX rb
    let n := (s.readX rc).toNat
    let k := imm.toNat
    ShiftsTo s (.shl ra rb rc) ra n (BitVec.ofNat 32 (b.toNat * 2 ^ n)) ∧
    ShiftsTo s (.shli ra rb imm) ra k (BitVec.ofNat 32 (b.toNat * 2 ^ k)) ∧
    ShiftsTo s (.slr ra rb rc) ra n (BitVec.ofNat 32 (b.toNat / 2 ^ n)) ∧
    ShiftsTo s (.slri ra rb imm) ra k (BitVec.ofNat 32 (b.toNat / 2 ^ k)) ∧
    ShiftsTo s (.sar ra rb rc) ra n (BitVec.ofInt 32 (b.toInt / 2 ^ n)) ∧
    ShiftsTo s (.sari ra rb imm) ra k (BitVec.ofInt 32 (b.toInt / 2 ^ k))) ∧
    ∀ b : Word, BitVec.ofNat 32 (b.toNat * 2 ^ 32) = 0#32 ∧ BitVec.ofNat 32 (b.toNat / 2 ^ 32) = 0#32 ∧
      BitVec.ofInt 32 (b.toInt / 2 ^ 32) = if b.msb then 0xFFFFFFFF#32 else 0#32

/-- AND, OR, XOR and NOT work on all 32 bits and write nothing but ra (41_arith_logic.md R150, R176, R177, R178,
R179). -/
def Obligations.BitwiseLogic : Prop :=
  ∀ (s : State) (ra rb rc : Reg),
    (∃ t, exec (.and ra rb rc) s = .next t ∧ WritesX s t ra (s.readX rb &&& s.readX rc)) ∧
    (∃ t, exec (.or ra rb rc) s = .next t ∧ WritesX s t ra (s.readX rb ||| s.readX rc)) ∧
    (∃ t, exec (.xor ra rb rc) s = .next t ∧ WritesX s t ra (s.readX rb ^^^ s.readX rc)) ∧
    (∃ t, exec (.not ra rb) s = .next t ∧ WritesX s t ra (~~~(s.readX rb)))

/-- The ten comparisons write 1 or 0, agree with each other, and signed and unsigned order differ by bit 31
(R152). -/
def Obligations.ComparisonsWriteOneOrZero : Prop :=
  (∀ (s : State) (ra rb rc : Reg),
    let b := s.readX rb
    let c := s.readX rc
    (∃ t, exec (.eq ra rb rc) s = .next t ∧ WritesX s t ra (if b = c then 1#32 else 0#32)) ∧
    (∃ t, exec (.ne ra rb rc) s = .next t ∧ WritesX s t ra (if b ≠ c then 1#32 else 0#32)) ∧
    (∃ t, exec (.lt ra rb rc) s = .next t ∧ WritesX s t ra (if b.toInt < c.toInt then 1#32 else 0#32)) ∧
    (∃ t, exec (.ltu ra rb rc) s = .next t ∧ WritesX s t ra (if b.toNat < c.toNat then 1#32 else 0#32)) ∧
    (∃ t, exec (.gt ra rb rc) s = .next t ∧ WritesX s t ra (if c.toInt < b.toInt then 1#32 else 0#32)) ∧
    (∃ t, exec (.gtu ra rb rc) s = .next t ∧ WritesX s t ra (if c.toNat < b.toNat then 1#32 else 0#32)) ∧
    (∃ t, exec (.le ra rb rc) s = .next t ∧ WritesX s t ra (if b.toInt ≤ c.toInt then 1#32 else 0#32)) ∧
    (∃ t, exec (.leu ra rb rc) s = .next t ∧ WritesX s t ra (if b.toNat ≤ c.toNat then 1#32 else 0#32)) ∧
    (∃ t, exec (.ge ra rb rc) s = .next t ∧ WritesX s t ra (if c.toInt ≤ b.toInt then 1#32 else 0#32)) ∧
    (∃ t, exec (.geu ra rb rc) s = .next t ∧ WritesX s t ra (if c.toNat ≤ b.toNat then 1#32 else 0#32))) ∧
    (∀ (s t u : State) (ra rb rc : Reg), ra ≠ 0 →
      (exec (.lt ra rb rc) s = .next t → exec (.gt ra rc rb) s = .next u → t.readX ra = u.readX ra) ∧
      (exec (.ltu ra rb rc) s = .next t → exec (.gtu ra rc rb) s = .next u → t.readX ra = u.readX ra) ∧
      (exec (.le ra rb rc) s = .next t → exec (.gt ra rb rc) s = .next u → t.readX ra = 1#32 - u.readX ra) ∧
      (exec (.leu ra rb rc) s = .next t → exec (.gtu ra rb rc) s = .next u → t.readX ra = 1#32 - u.readX ra) ∧
      (exec (.ge ra rb rc) s = .next t → exec (.lt ra rb rc) s = .next u → t.readX ra = 1#32 - u.readX ra) ∧
      (exec (.geu ra rb rc) s = .next t → exec (.ltu ra rb rc) s = .next u → t.readX ra = 1#32 - u.readX ra) ∧
      (exec (.ne ra rb rc) s = .next t → exec (.eq ra rb rc) s = .next u → t.readX ra = 1#32 - u.readX ra)) ∧
    ∀ b c : Word, (b.toInt < c.toInt ↔ b.toNat < c.toNat) ↔ b.msb = c.msb

/-- B, BE, BNE, BNEZ, BLT and BGT go to pc + PC_BIAS + 4 * imm when their condition holds, else on
(42_branch_jump.md R200, R201, R202, R203, R204, R205, R206, 30_encoding.md R108). -/
def Obligations.BranchesTakenOrNot : Prop :=
  ∀ (s : State) (ra rb : Reg) (imm : Half),
    let a := s.readX ra
    let b := s.readX rb
    let bias : Word := match s.params.pcBias with | .zero => 0#32 | .four => 4#32
    let target := s.pc + bias + imm.signExtend 32 * 4#32
    (∃ t, exec (.b imm) s = .next t ∧ JumpsTo s t target) ∧
    (∃ t, exec (.be ra rb imm) s = .next t ∧ BranchesTo s t (a = b) target) ∧
    (∃ t, exec (.bne ra rb imm) s = .next t ∧ BranchesTo s t (a ≠ b) target) ∧
    (∃ t, exec (.bnez ra imm) s = .next t ∧ BranchesTo s t (a ≠ 0#32) target) ∧
    (∃ t, exec (.blt ra rb imm) s = .next t ∧ BranchesTo s t (a.toInt < b.toInt) target) ∧
    (∃ t, exec (.bgt ra rb imm) s = .next t ∧ BranchesTo s t (b.toInt < a.toInt) target)

/-- BNEZ ra, imm is BNE ra, R0, imm: one word, one effect, and the decoder reads it as BNE (R204). -/
def Obligations.BnezIsBneWithR0 : Prop :=
  (∀ (s : State) (ra : Reg) (imm : Half),
    let bias : Word := match s.params.pcBias with | .zero => 0#32 | .four => 4#32
    exec (.bnez ra imm) s = exec (.bne ra 0 imm) s ∧ encode (.bnez ra imm) = encode (.bne ra 0 imm) ∧
      (∃ t, exec (.bnez ra imm) s = .next t ∧
        BranchesTo s t (s.readX ra ≠ 0#32) (s.pc + bias + imm.signExtend 32 * 4#32)) ∧
      (opcodeRow (.bnez ra imm)).pattern = 0x26000000#32 ∧ (opcodeRow (.bnez ra imm)).mask = 0xFF0F0000#32) ∧
    ∀ w : Word, w &&& 0xFF0F0000#32 = 0x26000000#32 →
      ∃ ra : Reg, ra.val = (w.extractLsb' 20 4).toNat ∧ decode w = .ok (.bne ra 0 (w.extractLsb' 0 16))

/-- J keeps the top six bits of pc + PC_BIAS and takes the rest from imm24; JR takes all 32 bits of ra
(42_branch_jump.md R207, R208). -/
def Obligations.JumpTargets : Prop :=
  ∀ (s : State) (ra : Reg) (imm24 : BitVec 24),
    let bias : Word := match s.params.pcBias with | .zero => 0#32 | .four => 4#32
    (∃ t, exec (.j imm24) s = .next t ∧
      JumpsTo s t (((s.pc + bias) &&& 0xFC000000#32) ||| (imm24.setWidth 32 * 4#32))) ∧
    (∃ t, exec (.jr ra) s = .next t ∧ JumpsTo s t (s.readX ra))

/-- CALL and RET are refused in every state, whatever the operand (42_branch_jump.md R209, R210). -/
def Obligations.CallAndRetRefuse : Prop :=
  ∀ (s : State) (ra : Reg),
    exec (.call ra) s = .refused .callUndecided ∧ exec .ret s = .refused .retUndecided

/-- The effective address is the base register plus the immediate, extended by LS_IMM_EXT, wrapped
(43_load_store.md R220, 10_state.md R32). -/
def Obligations.EffectiveAddress : Prop :=
  ∀ (s : State) (rb : Reg) (imm : Half),
    (s.params.lsImmExt = .sign → s.effAddr rb imm = s.readX rb + imm.signExtend 32) ∧
    (s.params.lsImmExt = .zero → s.effAddr rb imm = s.readX rb + imm.setWidth 32) ∧
    (s.params.lsImmExt = .sign → s.effAddr 0 imm = imm.signExtend 32) ∧
    (s.params.lsImmExt = .zero → s.effAddr 0 imm = imm.setWidth 32) ∧
    (imm.msb = false → s.effAddr rb imm = s.readX rb + imm.setWidth 32)

/-- LW, LH, LB and LF write the little-endian value at the effective address and nothing else (43_load_store.md
R221, R222, R223, R224, 20_memory.md R71, R76, R80). -/
def Obligations.LoadsComplete : Prop :=
  ∀ (s : State) (ra rb fa : Reg) (imm : Half),
    let a := s.effAddr rb imm
    (s.AlignedFor a 4 → s.InMemory a 4 →
      ∃ t, exec (.lw ra rb imm) s = .next t ∧ WritesX s t ra (s.wordAt a)) ∧
    (s.AlignedFor a 2 → s.InMemory a 2 →
      ∃ t, exec (.lh ra rb imm) s = .next t ∧ WritesX s t ra
        (match s.params.narrowLoadExt with
          | .sign => (s.halfAt a).signExtend 32
          | .zero => (s.halfAt a).setWidth 32)) ∧
    (s.InMemory a 1 →
      ∃ t, exec (.lb ra rb imm) s = .next t ∧ WritesX s t ra
        (match s.params.narrowLoadExt with
          | .sign => (s.byteFrom a 0).signExtend 32
          | .zero => (s.byteFrom a 0).setWidth 32)) ∧
    (s.AlignedFor a 8 → s.InMemory a 8 →
      ∃ t, exec (.lf fa rb imm) s = .next t ∧ WritesF s t fa (s.longAt a))

/-- SW, SH, SB and SF store exactly their bytes, low byte first, at the effective address (43_load_store.md
R228, R229, R230, R231, 20_memory.md R71, R76, R80, R90). -/
def Obligations.StoresComplete : Prop :=
  ∀ (s : State) (ra rb fa : Reg) (imm : Half), Memory.wf s.mem →
    let a := s.effAddr rb imm
    (s.AlignedFor a 4 → s.Storable a 4 → ∃ t, exec (.sw ra rb imm) s = .next t ∧
      StoresBytes s t a (bytesOfWord (s.readX ra)) [] ∧ t.draws = s.draws) ∧
    (s.AlignedFor a 2 → s.Storable a 2 → ∃ t, exec (.sh ra rb imm) s = .next t ∧
      StoresBytes s t a (bytesOfHalf ((s.readX ra).extractLsb' 0 16)) [] ∧ t.draws = s.draws) ∧
    (s.Storable a 1 → ∃ t, exec (.sb ra rb imm) s = .next t ∧
      StoresBytes s t a [(s.readX ra).extractLsb' 0 8] [] ∧ t.draws = s.draws) ∧
    (s.AlignedFor a 8 → s.Storable a 8 → ∃ t, exec (.sf rb fa imm) s = .next t ∧
      StoresBytes s t a (bytesOfLong (s.readF fa)) [] ∧ t.draws = s.draws)

/-- A misaligned access, and then one outside memory or on declared code, stops with its address, size and kind
(20_memory.md R76, R80, R90, 60_exceptions.md R405, R406). -/
def Obligations.LoadsAndStoresStop : Prop :=
  ∀ (s : State) (ra rb fa : Reg) (imm : Half),
    let a := s.effAddr rb imm
    AccessStops s (.lw ra rb imm) a 4 .load (s.InMemory a 4) ∧
    AccessStops s (.lh ra rb imm) a 2 .load (s.InMemory a 2) ∧
    AccessStops s (.lb ra rb imm) a 1 .load (s.InMemory a 1) ∧
    AccessStops s (.lf fa rb imm) a 8 .load (s.InMemory a 8) ∧
    AccessStops s (.sw ra rb imm) a 4 .store (s.Storable a 4) ∧
    AccessStops s (.sh ra rb imm) a 2 .store (s.Storable a 2) ∧
    AccessStops s (.sb ra rb imm) a 1 .store (s.Storable a 1) ∧
    AccessStops s (.sf rb fa imm) a 8 .store (s.Storable a 8) ∧
    s.AlignedFor a 1

/-- LI sign-extends, LIU zero-extends and LIH places its immediate in the high half, low half zero
(43_load_store.md R225, R226, R227, 30_encoding.md R109). -/
def Obligations.ImmediateLoads : Prop :=
  ∀ (s : State) (ra : Reg) (imm : Half),
    (∃ t, exec (.li ra imm) s = .next t ∧ WritesX s t ra (imm.signExtend 32)) ∧
    (∃ t, exec (.liu ra imm) s = .next t ∧ WritesX s t ra (imm.setWidth 32)) ∧
    (∃ t, exec (.lih ra imm) s = .next t ∧ WritesX s t ra (imm.setWidth 32 * 0x10000#32))

/-- A word, half, byte or long that is stored is what a load at that address returns next (20_memory.md R71,
R73, R87). -/
def Obligations.StoreThenLoadReturnsValue : Prop :=
  ∀ (s t : State) (ra rb rd fa fd : Reg) (imm : Half), Memory.wf s.mem →
    let v := s.readX ra
    let low : Word := match s.params.narrowLoadExt with
      | .sign => (v.extractLsb' 0 8).signExtend 32
      | .zero => (v.extractLsb' 0 8).setWidth 32
    let half : Word := match s.params.narrowLoadExt with
      | .sign => (v.extractLsb' 0 16).signExtend 32
      | .zero => (v.extractLsb' 0 16).setWidth 32
    (exec (.sw ra rb imm) s = .next t →
      (∃ u, exec (.lw rd rb imm) t = .next u ∧ u.readX rd = if rd = 0 then 0#32 else v) ∧
      (∃ u, exec (.lb rd rb imm) t = .next u ∧ u.readX rd = if rd = 0 then 0#32 else low)) ∧
    (exec (.sh ra rb imm) s = .next t →
      ∃ u, exec (.lh rd rb imm) t = .next u ∧ u.readX rd = if rd = 0 then 0#32 else half) ∧
    (exec (.sb ra rb imm) s = .next t →
      ∃ u, exec (.lb rd rb imm) t = .next u ∧ u.readX rd = if rd = 0 then 0#32 else low) ∧
    (exec (.sf rb fa imm) s = .next t → ∃ u, exec (.lf fd rb imm) t = .next u ∧ u.readF fd = s.readF fa)

/-- All ten stack instructions are refused under the default; the H, B and A forms under every setting
(44_stack.md R240, R241, R242, R243, R244, R246, R248, R249, R251). -/
def Obligations.StackInstructionsRefuse : Prop :=
  ∀ (s : State) (r : Reg),
    (s.params.stackSemantics = .refuse →
      exec (.popw r) s = .refused (.stackMeaningEmpty "POPW") ∧
      exec (.popf r) s = .refused (.stackMeaningEmpty "POPF") ∧
      exec (.pshw r) s = .refused (.stackMeaningEmpty "PSHW") ∧
      exec (.pshf r) s = .refused (.stackMeaningEmpty "PSHF")) ∧
    exec (.poph r) s = .refused (.stackMeaningEmpty "POPH") ∧
    exec (.popb r) s = .refused (.stackMeaningEmpty "POPB") ∧
    exec (.popa r) s = .refused (.stackMeaningEmpty "POPA") ∧
    exec (.pshh r) s = .refused (.stackMeaningEmpty "PSHH") ∧
    exec (.pshb r) s = .refused (.stackMeaningEmpty "PSHB") ∧
    exec (.psha r) s = .refused (.stackMeaningEmpty "PSHA")

/-- Under the candidate (log 3) PSHW and PSHF store at sp - 8 and move SP there (44_stack.md R241, 20_memory.md
R75). The model's setting of log 3, the spec author's conjecture. -/
def Obligations.CandidatePushesStore : Prop :=
  ∀ (s : State) (ra fa : Reg), Memory.wf s.mem → s.params.stackSemantics = .candidate →
    (s.readX spIndex).toNat % 8 = 0 →
    let a := s.pushAddr
    a = s.readX 12 - 8#32 ∧
    (s.Storable a 4 → ∃ t, exec (.pshw ra) s = .next t ∧
      StoresBytes s t a (bytesOfWord (s.readX ra)) [12] ∧ t.readX 12 = a ∧ t.draws = s.draws) ∧
    (s.Storable a 8 → ∃ t, exec (.pshf fa) s = .next t ∧
      StoresBytes s t a (bytesOfLong (s.readF fa)) [12] ∧ t.readX 12 = a ∧ t.draws = s.draws)

/-- Under the candidate (log 3) POPW and POPF load at sp and move SP to sp + 8; a POPW of SP keeps the value
(44_stack.md R241). The model's setting of log 3, the spec author's conjecture. -/
def Obligations.CandidatePopsLoad : Prop :=
  ∀ (s : State) (ra fa : Reg), s.params.stackSemantics = .candidate →
    let a := s.readX 12
    a.toNat % 8 = 0 →
    (s.InMemory a 4 → ∃ t, exec (.popw ra) s = .next t ∧ OnlyRegs s t [ra, 12] [] ∧
      t.readX ra = (if ra = 0 then 0#32 else s.wordAt a) ∧ (ra ≠ 12 → t.readX 12 = a + 8#32) ∧
      NextPc s t ∧ t.draws = s.draws) ∧
    (s.InMemory a 8 → ∃ t, exec (.popf fa) s = .next t ∧ OnlyRegs s t [12] [fa] ∧
      t.readF fa = s.longAt a ∧ t.readX 12 = a + 8#32 ∧ NextPc s t ∧ t.draws = s.draws)

/-- Under the candidate (log 3) a push followed by a pop returns the value and restores SP (44_stack.md R241).
The model's setting of log 3, the spec author's conjecture. -/
def Obligations.PushThenPopReturnsValue : Prop :=
  ∀ (s t : State) (ra rd fa fd : Reg), Memory.wf s.mem →
    (exec (.pshw ra) s = .next t → ∃ u, exec (.popw rd) t = .next u ∧
      (rd ≠ 0 → u.readX rd = s.readX ra) ∧ (rd ≠ 12 → u.readX 12 = s.readX 12)) ∧
    (exec (.pshf fa) s = .next t → ∃ u, exec (.popf fd) t = .next u ∧
      u.readF fd = s.readF fa ∧ u.readX 12 = s.readX 12)

/-- Under the candidate (log 3) a slot that is no multiple of 8, then one outside memory, stops the instruction
(44_stack.md R241, 20_memory.md R80, R90). The model's setting of log 3, the spec author's conjecture. -/
def Obligations.CandidateStackStops : Prop :=
  ∀ (s : State) (r : Reg), s.params.stackSemantics = .candidate →
    let sp := s.readX 12
    (sp.toNat % 8 ≠ 0 →
      exec (.popw r) s = .fault (.misaligned sp 8 .stack) ∧ exec (.popf r) s = .fault (.misaligned sp 8 .stack) ∧
      exec (.pshw r) s = .fault (.misaligned sp 8 .stack) ∧ exec (.pshf r) s = .fault (.misaligned sp 8 .stack)) ∧
    (sp.toNat % 8 = 0 →
      (¬ s.InMemory sp 4 → exec (.popw r) s = .fault (.accessFault sp 4 .load)) ∧
      (¬ s.InMemory sp 8 → exec (.popf r) s = .fault (.accessFault sp 8 .load)) ∧
      (¬ s.Storable (sp - 8#32) 4 → exec (.pshw r) s = .fault (.accessFault (sp - 8#32) 4 .store)) ∧
      (¬ s.Storable (sp - 8#32) 8 → exec (.pshf r) s = .fault (.accessFault (sp - 8#32) 8 .store)))

/-- ADDF SUBF MULF DIVF SQRT FLOR CEIL FMOD write the function of the record FP, or some NaN, and nothing else
(45_float.md R261, R263, R265, R266, R267, R268, R269, R281, R282, R289, R290). -/
def Obligations.FloatArithmeticCompletes : Prop :=
  ∀ (s : State) (fa fb fc : Reg),
    let b := s.readF fb
    let c := s.readF fc
    (∃ t, exec (.addf fa fb fc) s = .next t ∧ WritesFp s t fa (s.fp.add b c)) ∧
    (∃ t, exec (.subf fa fb fc) s = .next t ∧ WritesFp s t fa (s.fp.sub b c)) ∧
    (∃ t, exec (.mulf fa fb fc) s = .next t ∧ WritesFp s t fa (s.fp.mul b c)) ∧
    (∃ t, exec (.divf fa fb fc) s = .next t ∧ WritesFp s t fa (s.fp.div b c)) ∧
    (∃ t, exec (.sqrt fa fb) s = .next t ∧ WritesFp s t fa (s.fp.sqrt b)) ∧
    (∃ t, exec (.flor fa fb) s = .next t ∧ WritesFp s t fa (s.fp.floor b)) ∧
    (∃ t, exec (.ceil fa fb) s = .next t ∧ WritesFp s t fa (s.fp.ceil b)) ∧
    (∃ t, exec (.fmod fa fb fc) s = .next t ∧ WritesFp s t fa (s.fp.fmod b c)) ∧
    (s.params.fp = .binary64 → s.fp.add = FP.add ∧ s.fp.sub = FP.sub ∧ s.fp.mul = FP.mul ∧ s.fp.div = FP.div ∧
      s.fp.sqrt = FP.sqrt ∧ s.fp.floor = FP.floor ∧ s.fp.ceil = FP.ceil ∧ s.fp.fmod = FP.fmod)

/-- Sum, difference, product and quotient of finite numbers are the exact result rounded to nearest, ties to
even (45_float.md R260, R261). The sign of a zero quotient is the model's, log 16. -/
def Obligations.FloatOpsRoundToNearest : Prop :=
  ∀ a b : Long, FP.isFinite a = true → FP.isFinite b = true →
    (FP.value a + FP.value b ≠ 0 → ∃ p, FP.add a b = some p ∧
      FP.IsNearest (decide (FP.value a + FP.value b < 0)) (FP.value a + FP.value b).natAbs 1 p) ∧
    (FP.value a - FP.value b ≠ 0 → ∃ p, FP.sub a b = some p ∧
      FP.IsNearest (decide (FP.value a - FP.value b < 0)) (FP.value a - FP.value b).natAbs 1 p) ∧
    (∃ p, FP.mul a b = some p ∧
      FP.IsNearest (FP.sign a != FP.sign b) (FP.mag a * FP.mag b) FP.unitsPerOne p) ∧
    (FP.isZero b = false → ∃ p, FP.div a b = some p ∧
      FP.IsNearest (FP.sign a != FP.sign b) (FP.mag a * FP.unitsPerOne) (FP.mag b) p)

/-- NaN operands, infinities, zero divisors and exact zero sums give what R261 lists (45_float.md R261). -/
def Obligations.FloatSpecialCases : Prop :=
  (∀ a b : Long, FP.isNan a = true ∨ FP.isNan b = true →
      FP.add a b = none ∧ FP.sub a b = none ∧ FP.mul a b = none ∧ FP.div a b = none) ∧
    (∀ a : Long, FP.isNan a = true ∨ (FP.isNan a = false ∧ FP.value a < 0) → FP.sqrt a = none) ∧
    (∀ a b : Long, FP.isInf a = true → FP.isInf b = true →
      (FP.sign a ≠ FP.sign b → FP.add a b = none) ∧ (FP.sign a = FP.sign b → FP.sub a b = none) ∧
      FP.div a b = none) ∧
    (∀ a b : Long, FP.isZero a = true →
      (FP.isInf b = true → FP.mul a b = none ∧ FP.mul b a = none) ∧ (FP.isZero b = true → FP.div a b = none)) ∧
    (∀ a b : Long, FP.isFinite a = true → FP.isZero a = false → FP.isZero b = true →
      FP.div a b = some (if FP.sign a = FP.sign b then 0x7FF0000000000000#64 else 0xFFF0000000000000#64)) ∧
    (∀ a b : Long, FP.isFinite a = true → FP.isFinite b = true →
      (FP.sign a ≠ FP.sign b → FP.value a + FP.value b = 0 → FP.add a b = some 0#64) ∧
      (FP.sign a = FP.sign b → FP.value a - FP.value b = 0 → FP.sub a b = some 0#64)) ∧
    FP.add 0x8000000000000000#64 0x8000000000000000#64 = some 0x8000000000000000#64 ∧
    FP.sqrt 0x8000000000000000#64 = some 0x8000000000000000#64

/-- The square root of a positive finite number is the exact root rounded to nearest, ties to even (45_float.md
R261). -/
def Obligations.SquareRootRoundsToNearest : Prop :=
  ∀ a : Long, FP.isFinite a = true → FP.sign a = false → FP.isZero a = false →
    let n := FP.mag a * FP.unitsPerOne
    ∃ p, FP.sqrt a = some p ∧ FP.sign p = false ∧ FP.isFinite p = true ∧
      ∀ q, FP.isFinite q = true →
        (FP.mag p < FP.mag q → 4 * n ≤ (FP.mag p + FP.mag q) ^ 2) ∧
        (FP.mag q < FP.mag p → (FP.mag p + FP.mag q) ^ 2 ≤ 4 * n) ∧
        (FP.mag q ≠ FP.mag p → (FP.mag p + FP.mag q) ^ 2 = 4 * n → FP.frac p % 2 = 0)

/-- The six float comparisons write 1.0 or +0.0; a NaN is unordered, the zeros equal, infinities outermost
(R262). -/
def Obligations.FloatComparisonsWriteOneOrZero : Prop :=
  (∀ (s : State) (fa fb fc : Reg),
    let b := s.readF fb
    let c := s.readF fc
    let one : Long := 0x3FF0000000000000#64
    let nil : Long := 0x0000000000000000#64
    (∃ t, exec (.eqf fa fb fc) s = .next t ∧ WritesF s t fa (if s.fp.eq b c then one else nil)) ∧
    (∃ t, exec (.nef fa fb fc) s = .next t ∧ WritesF s t fa (if s.fp.ne b c then one else nil)) ∧
    (∃ t, exec (.ltf fa fb fc) s = .next t ∧ WritesF s t fa (if s.fp.lt b c then one else nil)) ∧
    (∃ t, exec (.gtf fa fb fc) s = .next t ∧ WritesF s t fa (if s.fp.gt b c then one else nil)) ∧
    (∃ t, exec (.lef fa fb fc) s = .next t ∧ WritesF s t fa (if s.fp.le b c then one else nil)) ∧
    (∃ t, exec (.gef fa fb fc) s = .next t ∧ WritesF s t fa (if s.fp.ge b c then one else nil))) ∧
    (∀ (s : State) (b c : Long), s.params.fp = .binary64 →
      let ord := FP.isNan b = false ∧ FP.isNan c = false
      (s.fp.eq b c = true ↔ ord ∧ FP.value b = FP.value c) ∧
      (s.fp.ne b c = true ↔ ¬ (ord ∧ FP.value b = FP.value c)) ∧
      (s.fp.lt b c = true ↔ ord ∧ FP.value b < FP.value c) ∧
      (s.fp.gt b c = true ↔ ord ∧ FP.value c < FP.value b) ∧
      (s.fp.le b c = true ↔ ord ∧ FP.value b ≤ FP.value c) ∧
      (s.fp.ge b c = true ↔ ord ∧ FP.value c ≤ FP.value b)) ∧
    FP.value 0x0000000000000000#64 = FP.value 0x8000000000000000#64 ∧
    ∀ p : Long, FP.isFinite p = true →
      FP.value 0xFFF0000000000000#64 < FP.value p ∧ FP.value p < FP.value 0x7FF0000000000000#64

/-- POW LOG LOGT EXP SIN COS TAN ASIN ACOS ATAN write a value that depends on the operand patterns alone
(45_float.md R264, R276, R278, R279, R280, R283, R284, R285, R286, R287, R288). -/
def Obligations.ElementaryFunctionsAreFunctions : Prop :=
  (∀ c : FpSetting, ∃ g : Long → Long → Long, ∀ (s : State) (fa fb fc : Reg), s.params.fp = c →
      ∃ t, exec (.pow fa fb fc) s = .next t ∧ WritesF s t fa (g (s.readF fb) (s.readF fc))) ∧
    DependsOnOperand .log ∧ DependsOnOperand .logt ∧ DependsOnOperand .exp ∧ DependsOnOperand .sin ∧
    DependsOnOperand .cos ∧ DependsOnOperand .tan ∧ DependsOnOperand .asin ∧ DependsOnOperand .acos ∧
    DependsOnOperand .atan

/-- fabs clears bit 63; floor, ceil and fmod are exact, keep zeros and infinities, and make the stated NaNs
(R263). -/
def Obligations.FloorCeilFmodFabsExact : Prop :=
  (∀ (s : State) (fa fb : Reg),
      (∃ t, exec (.fabs fa fb) s = .next t ∧ WritesF s t fa (s.fp.fabs (s.readF fb))) ∧
      (s.params.fp = .binary64 → s.fp.floor = FP.floor ∧ s.fp.ceil = FP.ceil ∧ s.fp.fmod = FP.fmod ∧
        ∃ t, exec (.fabs fa fb) s = .next t ∧ WritesF s t fa (s.readF fb &&& 0x7FFFFFFFFFFFFFFF#64))) ∧
    (∀ a : Long, FP.isFinite a = true →
      (∃ p, FP.floor a = some p ∧ FP.isFinite p = true ∧
        FP.value p = (FP.value a).fdiv FP.unitsPerOne * FP.unitsPerOne ∧
        (FP.isZero p = true → FP.sign p = FP.sign a)) ∧
      (∃ p, FP.ceil a = some p ∧ FP.isFinite p = true ∧
        FP.value p = -((-FP.value a).fdiv FP.unitsPerOne * FP.unitsPerOne) ∧
        (FP.isZero p = true → FP.sign p = FP.sign a))) ∧
    (∀ a : Long, FP.isZero a = true ∨ FP.isInf a = true → FP.floor a = some a ∧ FP.ceil a = some a) ∧
    (∀ a : Long, FP.isNan a = true → FP.floor a = none ∧ FP.ceil a = none) ∧
    (∀ a b : Long, FP.isFinite a = true → FP.isFinite b = true → FP.isZero b = false →
      ∃ p, FP.fmod a b = some p ∧ FP.isFinite p = true ∧
        FP.value p = FP.value a - FP.value b * (FP.value a).tdiv (FP.value b) ∧
        FP.sign p = FP.sign a ∧ FP.mag p < FP.mag b) ∧
    ∀ a b : Long,
      (FP.isNan a = true ∨ FP.isNan b = true ∨ FP.isInf a = true ∨ FP.isZero b = true → FP.fmod a b = none) ∧
      (FP.isFinite a = true → FP.isInf b = true → FP.fmod a b = some a)

/-- CIF and CUF write the number whose value is exactly the signed or the unsigned integer; zero gives +0.0
(46_conversion.md R300, R301, R302). -/
def Obligations.IntegersConvertExactly : Prop :=
  ∀ (s : State) (fa ra : Reg),
    (∃ t p, exec (.cif fa ra) s = .next t ∧ WritesF s t fa p ∧ FP.isFinite p = true ∧
      FP.value p = (s.readX ra).toInt * FP.unitsPerOne ∧ (s.readX ra = 0#32 → p = 0#64)) ∧
    (∃ t p, exec (.cuf fa ra) s = .next t ∧ WritesF s t fa p ∧ FP.isFinite p = true ∧
      FP.value p = ((s.readX ra).toNat : Int) * FP.unitsPerOne ∧ (s.readX ra = 0#32 → p = 0#64))

/-- CFI truncates toward zero, CFU the absolute value; out of range, infinite or NaN raises FpUndefined
(46_conversion.md R300, R303, R304, 60_exceptions.md R405). -/
def Obligations.FloatsConvertByTruncation : Prop :=
  ∀ (s : State) (ra fa : Reg),
    let p := s.readF fa
    let v := (FP.value p).tdiv FP.unitsPerOne
    let m := FP.mag p / FP.unitsPerOne
    (∀ w, s.fp.toS32 p = some w → ∃ t, exec (.cfi ra fa) s = .next t ∧ WritesX s t ra w) ∧
    (s.fp.toS32 p = none → exec (.cfi ra fa) s = .fault .fpUndefined) ∧
    (∀ w, s.fp.toS32 (s.fp.fabs p) = some w → ∃ t, exec (.cfu ra fa) s = .next t ∧ WritesX s t ra w) ∧
    (s.fp.toS32 (s.fp.fabs p) = none → exec (.cfu ra fa) s = .fault .fpUndefined) ∧
    (s.params.fp = .binary64 →
      (FP.isFinite p = true → -2147483648 ≤ v → v ≤ 2147483647 →
        ∃ t, exec (.cfi ra fa) s = .next t ∧ WritesX s t ra (BitVec.ofInt 32 v)) ∧
      (FP.isFinite p = false ∨ v < -2147483648 ∨ 2147483647 < v → exec (.cfi ra fa) s = .fault .fpUndefined) ∧
      (FP.isFinite p = true → m ≤ 2147483647 →
        ∃ t, exec (.cfu ra fa) s = .next t ∧ WritesX s t ra (BitVec.ofNat 32 m)) ∧
      (FP.isFinite p = false ∨ 2147483647 < m → exec (.cfu ra fa) s = .fault .fpUndefined))

/-- CLI puts the old IENA, zero-extended, in rc and clears IENA (47_system.md R311, 10_state.md R41). -/
def Obligations.CliReadsThenClears : Prop :=
  ∀ (s : State) (rc : Reg), ∃ t, exec (.cli rc) s = .next t ∧
    t.readX rc = (if rc = 0 then 0#32 else s.iena.setWidth 32) ∧ t.iena = 0#1 ∧
    SameRegs s t [rc] [] ∧ SameMem s t ∧ SameSystem s { t with iena := s.iena } ∧ SameOutside s t ∧
    NextPc s t ∧ t.draws = s.draws

/-- STI, STPG, STTO: refused by the default model, the source's assignment where the setting records it (log 4)
(47_system.md R312, R321, R322, 10_state.md R40). The setting `record` is the model's choice, log 4. -/
def Obligations.ControlWritesRefuseOrRecord : Prop :=
  ∀ (s : State) (rc : Reg),
    (s.params.stiWrite = .refuse → exec .sti s = .refused (.controlWriteRefused "STI")) ∧
    (s.params.pgToWrite = .refuse →
      exec (.stpg rc) s = .refused (.controlWriteRefused "STPG") ∧
      exec (.stto rc) s = .refused (.controlWriteRefused "STTO")) ∧
    (s.params.stiWrite = .record →
      ∃ t, exec .sti s = .next t ∧ t.iena = 1#1 ∧ JumpsTo s { t with iena := s.iena } (s.pc + 4#32)) ∧
    (s.params.pgToWrite = .record →
      (∃ t, exec (.stpg rc) s = .next t ∧ t.pg = s.readX rc ∧
        JumpsTo s { t with pg := s.pg } (s.pc + 4#32)) ∧
      (∃ t, exec (.stto rc) s = .next t ∧ t.tout = s.readX rc ∧
        JumpsTo s { t with tout := s.tout } (s.pc + 4#32)))

/-- LUSP, LVAD and LMSZ read their register, SUSP, STIV and STPD write theirs, and nothing else changes
(47_system.md R313, R314, R319, R320, R323, 48_memory_block.md R341, 10_state.md R48). -/
def Obligations.SystemRegisterMoves : Prop :=
  ∀ (s : State) (rc rd : Reg),
    (∃ t, exec (.lusp rc) s = .next t ∧ WritesX s t rc s.usp) ∧
    (∃ t, exec (.lvad rc) s = .next t ∧ WritesX s t rc s.vadr) ∧
    (∃ t, exec (.lmsz rc) s = .next t ∧ WritesX s t rc (BitVec.ofNat 32 s.memsz)) ∧
    (∃ t, exec (.susp rc) s = .next t ∧ t.usp = s.readX rc ∧
      JumpsTo s { t with usp := s.usp } (s.pc + 4#32) ∧
      ∃ u, exec (.lusp rd) t = .next u ∧ WritesX t u rd (s.readX rc)) ∧
    (∃ t, exec (.stiv rc) s = .next t ∧ t.ivec = s.readX rc ∧
      JumpsTo s { t with ivec := s.ivec } (s.pc + 4#32)) ∧
    (∃ t, exec (.stpd rc) s = .next t ∧ t.pdir = s.readX rc ∧
      JumpsTo s { t with pdir := s.pdir } (s.pc + 4#32))

/-- BIN takes the next input byte or -1 at the end of input; BOUT appends the low 8 bits (47_system.md R316,
R317, 10_state.md R51). -/
def Obligations.ConsoleBytesMove : Prop :=
  ∀ (s : State) (rc : Reg),
    (s.consoleIn = ⟨[], .ends⟩ → ∃ t, exec (.bin rc) s = .next t ∧ WritesX s t rc 0xFFFFFFFF#32) ∧
    (∀ (b : Byte) (bs : List Byte) (e : ConsoleTail), s.consoleIn = ⟨b :: bs, e⟩ →
      ∃ t, exec (.bin rc) s = .next t ∧ t.consoleIn = ⟨bs, e⟩ ∧
        WritesX s { t with consoleIn := s.consoleIn } rc (b.setWidth 32)) ∧
    (∀ k pos : Nat, s.consoleIn = ⟨[], .endless k pos⟩ →
      ∃ t, exec (.bin rc) s = .next t ∧ t.consoleIn = ⟨[], .endless k (pos + 1)⟩ ∧
        WritesX s { t with consoleIn := s.consoleIn } rc ((Config.consoleStream k pos).setWidth 32)) ∧
    (∃ t, exec (.bout rc) s = .next t ∧ t.consoleOut = s.consoleOut ++ [(s.readX rc).setWidth 8] ∧
      JumpsTo s { t with consoleOut := s.consoleOut } (s.pc + 4#32))

/-- IDLE, IRET, TRAP, MCMP and MCHR are refused in every state (47_system.md R310, R315, R318,
48_memory_block.md R343, R344). -/
def Obligations.UndescribedInstructionsRefuse : Prop :=
  ∀ (s : State) (ra rb rc : Reg),
    exec .idle s = .refused .idleNotDescribed ∧ exec .iret s = .refused .iretNotDescribed ∧
    exec .trap s = .refused .trapNotDescribed ∧ exec (.mcmp ra rb rc) s = .refused .mcmpNoDestination ∧
    exec (.mchr ra rb rc) s = .refused .mchrNoDestination

/-- MCPY copies n bytes from rb to ra between ranges that share no byte; only the named registers are left open
(48_memory_block.md R340, R342, 20_memory.md R80, R90). -/
def Obligations.BlockCopyMovesBytes : Prop :=
  ∀ (s : State) (ra rb rc : Reg), Memory.wf s.mem →
    let d := s.readX ra
    let src := s.readX rb
    let n := (s.readX rc).toNat
    ¬ SharesByte d src n → s.InMemory src n → s.Storable d n →
    ∃ t, exec (.mcpy ra rb rc) s = .next t ∧
      (∀ k, k < n → t.byteFrom d k = s.byteFrom src k) ∧ SameMemBut s t d n ∧
      SameRegs s t [ra, rb, rc] [] ∧ t.readX 0 = 0#32 ∧ SameSystem s t ∧ SameOutside s t ∧ NextPc s t

/-- MSET stores the low 8 bits of rb to n bytes from ra; only the named registers are left open
(48_memory_block.md R340, R345, 20_memory.md R80, R90). -/
def Obligations.BlockFillSetsBytes : Prop :=
  ∀ (s : State) (ra rb rc : Reg), Memory.wf s.mem →
    let d := s.readX ra
    let n := (s.readX rc).toNat
    s.Storable d n →
    ∃ t, exec (.mset ra rb rc) s = .next t ∧
      (∀ k, k < n → t.byteFrom d k = (s.readX rb).setWidth 8) ∧ SameMemBut s t d n ∧
      SameRegs s t [ra, rb, rc] [] ∧ t.readX 0 = 0#32 ∧ SameSystem s t ∧ SameOutside s t ∧ NextPc s t

/-- MCPY refuses overlapping ranges; a byte that may not be accessed stops MCPY and MSET before anything is
written (48_memory_block.md R340, R342, R345, 60_exceptions.md R405, R406). That the source range is checked
before the destination is the model's choice, log 17. -/
def Obligations.BlockInstructionsStop : Prop :=
  ∀ (s : State) (ra rb rc : Reg),
    let d := s.readX ra
    let src := s.readX rb
    let n := (s.readX rc).toNat
    (SharesByte d src n → exec (.mcpy ra rb rc) s = .refused .mcpyOverlap) ∧
    (¬ SharesByte d src n → ∀ k, k < n → s.InMemory src k → ¬ s.InMemory src (k + 1) →
      exec (.mcpy ra rb rc) s = .fault (.accessFault (wrapAddr src k) 1 .load)) ∧
    (¬ SharesByte d src n → s.InMemory src n → ∀ k, k < n → s.Storable d k → ¬ s.Storable d (k + 1) →
      exec (.mcpy ra rb rc) s = .fault (.accessFault (wrapAddr d k) 1 .store)) ∧
    (∀ k, k < n → s.Storable d k → ¬ s.Storable d (k + 1) →
      exec (.mset ra rb rc) s = .fault (.accessFault (wrapAddr d k) 1 .store))

/-- The reset state, with the ENTRY and MEMSZ of log 8, satisfies every launch premise of R451
(70_reset_and_hazards.md R451). ENTRY and MEMSZ are the model's choices, log 8; the zeros are the premises of
R451, log 10. -/
def Obligations.ResetMeetsLaunchPremises : Prop :=
  State.reset.iena = 0#1 ∧ State.reset.pg = 0#32 ∧ State.reset.tout = 0#32 ∧
    State.reset.pc.toNat % 4 = 0 ∧ State.reset.pc.toNat + 3 < State.reset.memsz ∧
    State.reset.memsz % 8 = 0 ∧ State.reset.memsz ≤ 2 ^ 32

/-- After reset R0 is 0, the console output empty and halted false; the rest are the values of logs 8 to 12
(10_state.md R54, R55, 70_reset_and_hazards.md R450). The values of logs 8 to 12 are the model's choices. -/
def Obligations.ResetValues : Prop :=
  State.reset.readX 0 = 0#32 ∧ State.reset.consoleOut = [] ∧ State.reset.halted = false ∧
    State.reset.pc = 0x1000#32 ∧ State.reset.memsz = 0x10000 ∧
    (∀ r : Reg, State.reset.readX r = 0#32 ∧ State.reset.readF r = 0#64) ∧
    State.reset.usp = 0#32 ∧ State.reset.ivec = 0#32 ∧ State.reset.pdir = 0#32 ∧ State.reset.vadr = 0#32 ∧
    State.reset.mem = [] ∧ State.reset.consoleIn = ⟨[], .ends⟩

/-- The reset state meets the invariant of StepKeepsValid and, of DefaultModelKeepsPremises, the one on PG and
TO (10_state.md R32, 20_memory.md R80, 70_reset_and_hazards.md R451). -/
def Obligations.ResetIsValid : Prop :=
  State.reset.Valid ∧ State.reset.PgToPremises

/-- Every step keeps memory canonical and below MEMSZ, the slot of R0 zero, and MEMSZ legal (10_state.md R32,
R48, 20_memory.md R80, 70_reset_and_hazards.md R451). -/
def Obligations.StepKeepsValid : Prop :=
  ∀ s t : State, s.Valid → step s = .next t → t.Valid

/-- With STPG and STTO refused PG and TO stay 0 through every step, with STI refused too IENA as well
(70_reset_and_hazards.md R451, 60_exceptions.md R410, 20_memory.md R86). -/
def Obligations.DefaultModelKeepsPremises : Prop :=
  (∀ s t : State, s.PgToPremises → step s = .next t → t.PgToPremises) ∧
    ∀ s t : State, s.DefaultPremises → step s = .next t → t.DefaultPremises

/-- Each system register, the console and halted change only by the instructions the spec names; VADR, MEMSZ
never (10_state.md R40, R47, R48, R51, R52, 00_scope.md R7). -/
def Obligations.SystemStateChangesOnlyByItsInstructions : Prop :=
  ∀ (i : Instr) (s t : State), exec i s = .next t →
    (t.iena ≠ s.iena → i = .sti ∨ ∃ rc, i = .cli rc) ∧
    (t.usp ≠ s.usp → ∃ rc, i = .susp rc) ∧ (t.ivec ≠ s.ivec → ∃ rc, i = .stiv rc) ∧
    (t.pdir ≠ s.pdir → ∃ rc, i = .stpd rc) ∧ (t.pg ≠ s.pg → ∃ rc, i = .stpg rc) ∧
    (t.tout ≠ s.tout → ∃ rc, i = .stto rc) ∧ (t.consoleIn ≠ s.consoleIn → ∃ rc, i = .bin rc) ∧
    (t.consoleOut ≠ s.consoleOut → ∃ rc, i = .bout rc) ∧ (t.halted ≠ s.halted → i = .halt) ∧
    t.vadr = s.vadr ∧ t.memsz = s.memsz ∧ t.params = s.params

/-- IVEC, PDIR and TO influence nothing: a different value in one changes no other part of any answer
(10_state.md R43, R44, R46, 60_exceptions.md R412). -/
def Obligations.WriteOnlyRegistersAreInert : Prop :=
  ∀ (i : Instr) (s : State) (v : Word),
    ((∀ rc, i ≠ .stiv rc) → exec i (s.setIvec v) = mapNext (fun t => t.setIvec v) (exec i s)) ∧
    ((∃ rc, i = .stiv rc) → exec i (s.setIvec v) = exec i s) ∧
    ((∀ rc, i ≠ .stpd rc) → exec i (s.setPdir v) = mapNext (fun t => t.setPdir v) (exec i s)) ∧
    ((∃ rc, i = .stpd rc) → exec i (s.setPdir v) = exec i s) ∧
    ((∀ rc, i ≠ .stto rc) → exec i (s.setTout v) = mapNext (fun t => t.setTout v) (exec i s)) ∧
    ((∃ rc, i = .stto rc) → exec i (s.setTout v) = exec i s)

/-- A well-formed old-style instruction leaves registers 8 to 15 of both files as they were (10_state.md R34,
R36, 45_float.md R265). -/
def Obligations.OldStyleReachesLowRegisters : Prop :=
  ∀ (i : Instr) (s t : State), WellFormed i = true → oldStyle i = true → exec i s = .next t →
    ∀ q : Reg, 8 ≤ q.val → t.readX q = s.readX q ∧ t.readF q = s.readF q

/-- An instruction changes only the registers its fields name as destinations (and SP, under the candidate
stack) (10_state.md R31, R32, 44_stack.md R241, 48_memory_block.md R340). SP among the targets of the stack
instructions is the candidate of log 3. -/
def Obligations.OnlyNamedRegistersChange : Prop :=
  ∀ (i : Instr) (s t : State), exec i s = .next t →
    (∀ q : Reg, q ∉ xTargets i → t.readX q = s.readX q) ∧ (∀ q : Reg, q ∉ fTargets i → t.readF q = s.readF q) ∧
      t.readX 0 = 0#32

/-- Memory changes only by SW SH SB SF, PSHW PSHF, MCPY and MSET (20_memory.md R74, 44_stack.md R241,
48_memory_block.md R340). -/
def Obligations.OnlyStoringInstructionsChangeMemory : Prop :=
  ∀ (i : Instr) (s t : State), exec i s = .next t → storesMemory i = false → SameMem s t

/-- A fetch needs a pc that is a multiple of 4; every instruction but JR, which can leave any value, keeps it
one (R77). -/
def Obligations.PcStaysAligned : Prop :=
  (∀ s : State, s.Running → s.pc.toNat % 4 ≠ 0 → step s = .fault (.misaligned s.pc 4 .fetch)) ∧
    (∀ (i : Instr) (s t : State), s.pc.toNat % 4 = 0 → exec i s = .next t → (∀ ra, i ≠ .jr ra) →
      t.pc.toNat % 4 = 0) ∧
    (∀ s t : State, step s = .next t → (∀ ra, decode (s.wordAt s.pc) ≠ .ok (.jr ra)) → t.pc.toNat % 4 = 0) ∧
    ∀ (s : State) (ra : Reg), ∃ t, exec (.jr ra) s = .next t ∧ t.pc = s.readX ra
end

