-- ==== Sys2Proof/Laws/Memory.lean ====
section
/-! SUPPORT. The laws of memory: a byte reads as it was last written, every other byte as before, and every write keeps
the canonical form. -/

namespace Sys2Proof.Machine

/-- An address below every listed one reads as unwritten. -/
theorem Memory.read_of_lt (m : Memory) (a : Nat) (h : ∀ c ∈ m, a < c.1) : Memory.read m a = unwrittenByte := by
  induction m with
  | nil => rfl
  | cons c m ih =>
    obtain ⟨b, u⟩ := c
    have hb : a < b := h (b, u) (by simp)
    rw [Memory.read, if_neg (Nat.ne_of_lt hb)]
    exact ih fun c hc => h c (by simp [hc])

/-- A write leaves every other byte alone. -/
theorem Memory.read_write_ne (m : Memory) (a b : Nat) (v : Byte) (h : b ≠ a) :
    Memory.read (Memory.write m a v) b = Memory.read m b := by
  induction m with
  | nil =>
    unfold Memory.write
    split <;> simp [Memory.read, h]
  | cons c m ih =>
    obtain ⟨k, u⟩ := c
    unfold Memory.write
    split
    · split <;> simp [Memory.read, h]
    · split
      · next he =>
        subst he
        split <;> simp [Memory.read, h]
      · simp only [Memory.read, ih]

/-- A byte that is written reads back. -/
theorem Memory.read_write_self (m : Memory) (a : Nat) (v : Byte) (h : Memory.wf m) :
    Memory.read (Memory.write m a v) a = v := by
  induction m with
  | nil =>
    unfold Memory.write
    split <;> simp_all [Memory.read]
  | cons c m ih =>
    obtain ⟨k, u⟩ := c
    obtain ⟨hp, hu⟩ := h
    rw [List.pairwise_cons] at hp
    unfold Memory.write
    split
    · next hlt =>
      split
      · next hv =>
        subst hv
        apply Memory.read_of_lt
        intro c hc
        rcases List.mem_cons.mp hc with rfl | hc
        · exact hlt
        · exact Nat.lt_trans hlt (hp.1 c hc)
      · simp [Memory.read]
    · split
      · next he =>
        subst he
        split
        · next hv =>
          subst hv
          exact Memory.read_of_lt m a hp.1
        · simp [Memory.read]
      · next hne =>
        rw [Memory.read, if_neg hne]
        exact ih ⟨hp.2, fun c hc => hu c (by simp [hc])⟩

/-- Reading after a write of one byte. -/
theorem Memory.read_write (m : Memory) (a b : Nat) (v : Byte) (h : Memory.wf m) :
    Memory.read (Memory.write m a v) b = if b = a then v else Memory.read m b := by
  split
  · next e => subst e; exact Memory.read_write_self m b v h
  · next e => exact Memory.read_write_ne m a b v e

/-- What a write can list: what it writes, and what was listed. -/
theorem Memory.mem_write {m : Memory} {a : Nat} {v : Byte} {c : Host.Cell} (h : c ∈ Memory.write m a v) :
    (c = (a, v) ∧ v ≠ unwrittenByte) ∨ c ∈ m := by
  induction m with
  | nil =>
    unfold Memory.write at h
    split at h <;> simp_all
  | cons d m ih =>
    obtain ⟨k, u⟩ := d
    unfold Memory.write at h
    split at h
    · split at h
      · exact .inr h
      · rcases List.mem_cons.mp h with rfl | h
        · exact .inl ⟨rfl, ‹_›⟩
        · exact .inr h
    · split at h
      · next he =>
        subst he
        split at h
        · exact .inr (by simp [h])
        · rcases List.mem_cons.mp h with rfl | h
          · exact .inl ⟨rfl, ‹_›⟩
          · exact .inr (by simp [h])
      · rcases List.mem_cons.mp h with rfl | h
        · exact .inr (by simp)
        · rcases ih h with h | h
          · exact .inl h
          · exact .inr (by simp [h])

/-- A write keeps the canonical form. -/
theorem Memory.write_wf (m : Memory) (a : Nat) (v : Byte) (h : Memory.wf m) : Memory.wf (Memory.write m a v) := by
  refine ⟨?_, fun c hc => ?_⟩
  · induction m with
    | nil =>
      unfold Memory.write
      split <;> simp
    | cons d m ih =>
      obtain ⟨k, u⟩ := d
      obtain ⟨hp, hu⟩ := h
      have hp' := List.pairwise_cons.mp hp
      unfold Memory.write
      split
      · next hlt =>
        split
        · exact hp
        · refine List.pairwise_cons.mpr ⟨fun c hc => ?_, hp⟩
          rcases List.mem_cons.mp hc with rfl | hc
          · exact hlt
          · exact Nat.lt_trans hlt (hp'.1 c hc)
      · next hge =>
        split
        · next he =>
          subst he
          split
          · exact hp'.2
          · exact List.pairwise_cons.mpr ⟨hp'.1, hp'.2⟩
        · next hne =>
          refine List.pairwise_cons.mpr ⟨fun c hc => ?_, ih ⟨hp'.2, fun c hc => hu c (by simp [hc])⟩⟩
          rcases Memory.mem_write hc with ⟨rfl, _⟩ | hc
          · show k < a
            omega
          · exact hp'.1 c hc
  · rcases Memory.mem_write hc with ⟨rfl, hv⟩ | hc
    · exact hv
    · exact h.2 c hc

/-! ## Several bytes -/

/-- One more byte on: the addresses of the rest. -/
theorem wrapAddr_succ (a : Word) (k : Nat) : wrapAddr (a + 1#32) k = wrapAddr a (k + 1) := by
  apply BitVec.eq_of_toNat_eq
  simp [wrapAddr]
  omega

@[simp] theorem wrapAddr_zero (a : Word) : wrapAddr a 0 = a := by
  simp [wrapAddr]

/-- Addresses less than 2^32 apart are different. -/
theorem wrapAddr_inj (a : Word) {j k : Nat} (hj : j < 2 ^ 32) (hk : k < 2 ^ 32) (h : wrapAddr a j = wrapAddr a k) :
    j = k := by
  have := congrArg BitVec.toNat h
  simp [wrapAddr] at this
  omega

@[simp] theorem Memory.length_readBytes (m : Memory) (a : Word) (n : Nat) : (Memory.readBytes m a n).length = n := by
  induction n generalizing a with
  | zero => rfl
  | succ n ih => simp [Memory.readBytes, ih]

/-- The bytes of a read, one by one. -/
theorem Memory.getElem_readBytes (m : Memory) (a : Word) (n k : Nat) (h : k < (Memory.readBytes m a n).length) :
    (Memory.readBytes m a n)[k] = Memory.read m (wrapAddr a k).toNat := by
  induction n generalizing a k with
  | zero => simp at h
  | succ n ih =>
    cases k with
    | zero => simp [Memory.readBytes]
    | succ k => simp [Memory.readBytes, ih, wrapAddr_succ]

/-- A store of several bytes leaves every other byte alone. -/
theorem Memory.read_writeBytes_ne (m : Memory) (a : Word) (bs : List Byte) (b : Nat)
    (h : ∀ k, k < bs.length → b ≠ (wrapAddr a k).toNat) :
    Memory.read (Memory.writeBytes m a bs) b = Memory.read m b := by
  induction bs generalizing m a with
  | nil => rfl
  | cons v bs ih =>
    have h0 : b ≠ a.toNat := by simpa using h 0 (by simp)
    rw [Memory.writeBytes, ih, Memory.read_write_ne m a.toNat b v h0]
    intro k hk
    rw [wrapAddr_succ]
    exact h (k + 1) (by simpa using hk)

theorem Memory.writeBytes_wf (m : Memory) (a : Word) (bs : List Byte) (h : Memory.wf m) :
    Memory.wf (Memory.writeBytes m a bs) := by
  induction bs generalizing m a with
  | nil => exact h
  | cons v bs ih => exact ih _ _ (Memory.write_wf m a.toNat v h)

/-- What a store of several bytes can list. -/
theorem Memory.mem_writeBytes {m : Memory} {a : Word} {bs : List Byte} {c : Host.Cell}
    (h : c ∈ Memory.writeBytes m a bs) : (∃ k, k < bs.length ∧ c.1 = (wrapAddr a k).toNat) ∨ c ∈ m := by
  induction bs generalizing m a with
  | nil => exact .inr h
  | cons v bs ih =>
    rcases ih h with ⟨k, hk, e⟩ | h
    · exact .inl ⟨k + 1, by simpa using hk, by rw [e, wrapAddr_succ]⟩
    · rcases Memory.mem_write h with ⟨rfl, _⟩ | h
      · exact .inl ⟨0, by simp, by simp⟩
      · exact .inr h

/-- The bytes stored read back. -/
theorem Memory.read_writeBytes (m : Memory) (a : Word) (bs : List Byte) (k : Nat) (hm : Memory.wf m)
    (hl : bs.length ≤ 2 ^ 32) (hk : k < bs.length) :
    Memory.read (Memory.writeBytes m a bs) (wrapAddr a k).toNat = bs[k] := by
  induction bs generalizing m a k with
  | nil => simp at hk
  | cons v bs ih =>
    have hl' : bs.length < 2 ^ 32 := by simp at hl; omega
    cases k with
    | zero =>
      rw [Memory.writeBytes, Memory.read_writeBytes_ne, wrapAddr_zero, Memory.read_write_self _ _ _ hm]
      · rfl
      · intro j hj e
        rw [wrapAddr_succ] at e
        have := wrapAddr_inj a (by omega) (by omega) (BitVec.eq_of_toNat_eq e)
        omega
    | succ k =>
      rw [Memory.writeBytes, ← wrapAddr_succ]
      exact ih _ _ _ (Memory.write_wf m a.toNat v hm) (by omega) (by simpa using hk)

/-- The memory after reset has the canonical form. -/
theorem Memory.reset_wf : Memory.wf State.reset.mem :=
  ⟨List.Pairwise.nil, by simp [State.reset]⟩

end Sys2Proof.Machine
end

