-- ==== Sys2Proof/Laws/State.lean ====
section
/-! SUPPORT. One lemma per field per update of State, and what the register accessors read after each update. -/

namespace Sys2Proof.Machine

@[simp] theorem State.setPc_x (s : State) (t : Word) : (s.setPc t).x = s.x := rfl
@[simp] theorem State.setPc_f (s : State) (t : Word) : (s.setPc t).f = s.f := rfl
@[simp] theorem State.setPc_pc (s : State) (t : Word) : (s.setPc t).pc = t := rfl
@[simp] theorem State.setPc_iena (s : State) (t : Word) : (s.setPc t).iena = s.iena := rfl
@[simp] theorem State.setPc_usp (s : State) (t : Word) : (s.setPc t).usp = s.usp := rfl
@[simp] theorem State.setPc_ivec (s : State) (t : Word) : (s.setPc t).ivec = s.ivec := rfl
@[simp] theorem State.setPc_pdir (s : State) (t : Word) : (s.setPc t).pdir = s.pdir := rfl
@[simp] theorem State.setPc_pg (s : State) (t : Word) : (s.setPc t).pg = s.pg := rfl
@[simp] theorem State.setPc_tout (s : State) (t : Word) : (s.setPc t).tout = s.tout := rfl
@[simp] theorem State.setPc_vadr (s : State) (t : Word) : (s.setPc t).vadr = s.vadr := rfl
@[simp] theorem State.setPc_memsz (s : State) (t : Word) : (s.setPc t).memsz = s.memsz := rfl
@[simp] theorem State.setPc_mem (s : State) (t : Word) : (s.setPc t).mem = s.mem := rfl
@[simp] theorem State.setPc_consoleIn (s : State) (t : Word) : (s.setPc t).consoleIn = s.consoleIn := rfl
@[simp] theorem State.setPc_consoleOut (s : State) (t : Word) : (s.setPc t).consoleOut = s.consoleOut := rfl
@[simp] theorem State.setPc_halted (s : State) (t : Word) : (s.setPc t).halted = s.halted := rfl
@[simp] theorem State.setPc_params (s : State) (t : Word) : (s.setPc t).params = s.params := rfl
@[simp] theorem State.setPc_draws (s : State) (t : Word) : (s.setPc t).draws = s.draws := rfl
@[simp] theorem State.setPc_readX (s : State) (t : Word) (r : Reg) : (s.setPc t).readX r = s.readX r := rfl
@[simp] theorem State.setPc_readF (s : State) (t : Word) (r : Reg) : (s.setPc t).readF r = s.readF r := rfl

@[simp] theorem State.setIena_x (s : State) (b : BitVec 1) : (s.setIena b).x = s.x := rfl
@[simp] theorem State.setIena_f (s : State) (b : BitVec 1) : (s.setIena b).f = s.f := rfl
@[simp] theorem State.setIena_pc (s : State) (b : BitVec 1) : (s.setIena b).pc = s.pc := rfl
@[simp] theorem State.setIena_iena (s : State) (b : BitVec 1) : (s.setIena b).iena = b := rfl
@[simp] theorem State.setIena_usp (s : State) (b : BitVec 1) : (s.setIena b).usp = s.usp := rfl
@[simp] theorem State.setIena_ivec (s : State) (b : BitVec 1) : (s.setIena b).ivec = s.ivec := rfl
@[simp] theorem State.setIena_pdir (s : State) (b : BitVec 1) : (s.setIena b).pdir = s.pdir := rfl
@[simp] theorem State.setIena_pg (s : State) (b : BitVec 1) : (s.setIena b).pg = s.pg := rfl
@[simp] theorem State.setIena_tout (s : State) (b : BitVec 1) : (s.setIena b).tout = s.tout := rfl
@[simp] theorem State.setIena_vadr (s : State) (b : BitVec 1) : (s.setIena b).vadr = s.vadr := rfl
@[simp] theorem State.setIena_memsz (s : State) (b : BitVec 1) : (s.setIena b).memsz = s.memsz := rfl
@[simp] theorem State.setIena_mem (s : State) (b : BitVec 1) : (s.setIena b).mem = s.mem := rfl
@[simp] theorem State.setIena_consoleIn (s : State) (b : BitVec 1) : (s.setIena b).consoleIn = s.consoleIn := rfl
@[simp] theorem State.setIena_consoleOut (s : State) (b : BitVec 1) : (s.setIena b).consoleOut = s.consoleOut := rfl
@[simp] theorem State.setIena_halted (s : State) (b : BitVec 1) : (s.setIena b).halted = s.halted := rfl
@[simp] theorem State.setIena_params (s : State) (b : BitVec 1) : (s.setIena b).params = s.params := rfl
@[simp] theorem State.setIena_draws (s : State) (b : BitVec 1) : (s.setIena b).draws = s.draws := rfl
@[simp] theorem State.setIena_readX (s : State) (b : BitVec 1) (r : Reg) : (s.setIena b).readX r = s.readX r := rfl
@[simp] theorem State.setIena_readF (s : State) (b : BitVec 1) (r : Reg) : (s.setIena b).readF r = s.readF r := rfl

@[simp] theorem State.setUsp_x (s : State) (v : Word) : (s.setUsp v).x = s.x := rfl
@[simp] theorem State.setUsp_f (s : State) (v : Word) : (s.setUsp v).f = s.f := rfl
@[simp] theorem State.setUsp_pc (s : State) (v : Word) : (s.setUsp v).pc = s.pc := rfl
@[simp] theorem State.setUsp_iena (s : State) (v : Word) : (s.setUsp v).iena = s.iena := rfl
@[simp] theorem State.setUsp_usp (s : State) (v : Word) : (s.setUsp v).usp = v := rfl
@[simp] theorem State.setUsp_ivec (s : State) (v : Word) : (s.setUsp v).ivec = s.ivec := rfl
@[simp] theorem State.setUsp_pdir (s : State) (v : Word) : (s.setUsp v).pdir = s.pdir := rfl
@[simp] theorem State.setUsp_pg (s : State) (v : Word) : (s.setUsp v).pg = s.pg := rfl
@[simp] theorem State.setUsp_tout (s : State) (v : Word) : (s.setUsp v).tout = s.tout := rfl
@[simp] theorem State.setUsp_vadr (s : State) (v : Word) : (s.setUsp v).vadr = s.vadr := rfl
@[simp] theorem State.setUsp_memsz (s : State) (v : Word) : (s.setUsp v).memsz = s.memsz := rfl
@[simp] theorem State.setUsp_mem (s : State) (v : Word) : (s.setUsp v).mem = s.mem := rfl
@[simp] theorem State.setUsp_consoleIn (s : State) (v : Word) : (s.setUsp v).consoleIn = s.consoleIn := rfl
@[simp] theorem State.setUsp_consoleOut (s : State) (v : Word) : (s.setUsp v).consoleOut = s.consoleOut := rfl
@[simp] theorem State.setUsp_halted (s : State) (v : Word) : (s.setUsp v).halted = s.halted := rfl
@[simp] theorem State.setUsp_params (s : State) (v : Word) : (s.setUsp v).params = s.params := rfl
@[simp] theorem State.setUsp_draws (s : State) (v : Word) : (s.setUsp v).draws = s.draws := rfl
@[simp] theorem State.setUsp_readX (s : State) (v : Word) (r : Reg) : (s.setUsp v).readX r = s.readX r := rfl
@[simp] theorem State.setUsp_readF (s : State) (v : Word) (r : Reg) : (s.setUsp v).readF r = s.readF r := rfl

@[simp] theorem State.setIvec_x (s : State) (v : Word) : (s.setIvec v).x = s.x := rfl
@[simp] theorem State.setIvec_f (s : State) (v : Word) : (s.setIvec v).f = s.f := rfl
@[simp] theorem State.setIvec_pc (s : State) (v : Word) : (s.setIvec v).pc = s.pc := rfl
@[simp] theorem State.setIvec_iena (s : State) (v : Word) : (s.setIvec v).iena = s.iena := rfl
@[simp] theorem State.setIvec_usp (s : State) (v : Word) : (s.setIvec v).usp = s.usp := rfl
@[simp] theorem State.setIvec_ivec (s : State) (v : Word) : (s.setIvec v).ivec = v := rfl
@[simp] theorem State.setIvec_pdir (s : State) (v : Word) : (s.setIvec v).pdir = s.pdir := rfl
@[simp] theorem State.setIvec_pg (s : State) (v : Word) : (s.setIvec v).pg = s.pg := rfl
@[simp] theorem State.setIvec_tout (s : State) (v : Word) : (s.setIvec v).tout = s.tout := rfl
@[simp] theorem State.setIvec_vadr (s : State) (v : Word) : (s.setIvec v).vadr = s.vadr := rfl
@[simp] theorem State.setIvec_memsz (s : State) (v : Word) : (s.setIvec v).memsz = s.memsz := rfl
@[simp] theorem State.setIvec_mem (s : State) (v : Word) : (s.setIvec v).mem = s.mem := rfl
@[simp] theorem State.setIvec_consoleIn (s : State) (v : Word) : (s.setIvec v).consoleIn = s.consoleIn := rfl
@[simp] theorem State.setIvec_consoleOut (s : State) (v : Word) : (s.setIvec v).consoleOut = s.consoleOut := rfl
@[simp] theorem State.setIvec_halted (s : State) (v : Word) : (s.setIvec v).halted = s.halted := rfl
@[simp] theorem State.setIvec_params (s : State) (v : Word) : (s.setIvec v).params = s.params := rfl
@[simp] theorem State.setIvec_draws (s : State) (v : Word) : (s.setIvec v).draws = s.draws := rfl
@[simp] theorem State.setIvec_readX (s : State) (v : Word) (r : Reg) : (s.setIvec v).readX r = s.readX r := rfl
@[simp] theorem State.setIvec_readF (s : State) (v : Word) (r : Reg) : (s.setIvec v).readF r = s.readF r := rfl

@[simp] theorem State.setPdir_x (s : State) (v : Word) : (s.setPdir v).x = s.x := rfl
@[simp] theorem State.setPdir_f (s : State) (v : Word) : (s.setPdir v).f = s.f := rfl
@[simp] theorem State.setPdir_pc (s : State) (v : Word) : (s.setPdir v).pc = s.pc := rfl
@[simp] theorem State.setPdir_iena (s : State) (v : Word) : (s.setPdir v).iena = s.iena := rfl
@[simp] theorem State.setPdir_usp (s : State) (v : Word) : (s.setPdir v).usp = s.usp := rfl
@[simp] theorem State.setPdir_ivec (s : State) (v : Word) : (s.setPdir v).ivec = s.ivec := rfl
@[simp] theorem State.setPdir_pdir (s : State) (v : Word) : (s.setPdir v).pdir = v := rfl
@[simp] theorem State.setPdir_pg (s : State) (v : Word) : (s.setPdir v).pg = s.pg := rfl
@[simp] theorem State.setPdir_tout (s : State) (v : Word) : (s.setPdir v).tout = s.tout := rfl
@[simp] theorem State.setPdir_vadr (s : State) (v : Word) : (s.setPdir v).vadr = s.vadr := rfl
@[simp] theorem State.setPdir_memsz (s : State) (v : Word) : (s.setPdir v).memsz = s.memsz := rfl
@[simp] theorem State.setPdir_mem (s : State) (v : Word) : (s.setPdir v).mem = s.mem := rfl
@[simp] theorem State.setPdir_consoleIn (s : State) (v : Word) : (s.setPdir v).consoleIn = s.consoleIn := rfl
@[simp] theorem State.setPdir_consoleOut (s : State) (v : Word) : (s.setPdir v).consoleOut = s.consoleOut := rfl
@[simp] theorem State.setPdir_halted (s : State) (v : Word) : (s.setPdir v).halted = s.halted := rfl
@[simp] theorem State.setPdir_params (s : State) (v : Word) : (s.setPdir v).params = s.params := rfl
@[simp] theorem State.setPdir_draws (s : State) (v : Word) : (s.setPdir v).draws = s.draws := rfl
@[simp] theorem State.setPdir_readX (s : State) (v : Word) (r : Reg) : (s.setPdir v).readX r = s.readX r := rfl
@[simp] theorem State.setPdir_readF (s : State) (v : Word) (r : Reg) : (s.setPdir v).readF r = s.readF r := rfl

@[simp] theorem State.setPg_x (s : State) (v : Word) : (s.setPg v).x = s.x := rfl
@[simp] theorem State.setPg_f (s : State) (v : Word) : (s.setPg v).f = s.f := rfl
@[simp] theorem State.setPg_pc (s : State) (v : Word) : (s.setPg v).pc = s.pc := rfl
@[simp] theorem State.setPg_iena (s : State) (v : Word) : (s.setPg v).iena = s.iena := rfl
@[simp] theorem State.setPg_usp (s : State) (v : Word) : (s.setPg v).usp = s.usp := rfl
@[simp] theorem State.setPg_ivec (s : State) (v : Word) : (s.setPg v).ivec = s.ivec := rfl
@[simp] theorem State.setPg_pdir (s : State) (v : Word) : (s.setPg v).pdir = s.pdir := rfl
@[simp] theorem State.setPg_pg (s : State) (v : Word) : (s.setPg v).pg = v := rfl
@[simp] theorem State.setPg_tout (s : State) (v : Word) : (s.setPg v).tout = s.tout := rfl
@[simp] theorem State.setPg_vadr (s : State) (v : Word) : (s.setPg v).vadr = s.vadr := rfl
@[simp] theorem State.setPg_memsz (s : State) (v : Word) : (s.setPg v).memsz = s.memsz := rfl
@[simp] theorem State.setPg_mem (s : State) (v : Word) : (s.setPg v).mem = s.mem := rfl
@[simp] theorem State.setPg_consoleIn (s : State) (v : Word) : (s.setPg v).consoleIn = s.consoleIn := rfl
@[simp] theorem State.setPg_consoleOut (s : State) (v : Word) : (s.setPg v).consoleOut = s.consoleOut := rfl
@[simp] theorem State.setPg_halted (s : State) (v : Word) : (s.setPg v).halted = s.halted := rfl
@[simp] theorem State.setPg_params (s : State) (v : Word) : (s.setPg v).params = s.params := rfl
@[simp] theorem State.setPg_draws (s : State) (v : Word) : (s.setPg v).draws = s.draws := rfl
@[simp] theorem State.setPg_readX (s : State) (v : Word) (r : Reg) : (s.setPg v).readX r = s.readX r := rfl
@[simp] theorem State.setPg_readF (s : State) (v : Word) (r : Reg) : (s.setPg v).readF r = s.readF r := rfl

@[simp] theorem State.setTout_x (s : State) (v : Word) : (s.setTout v).x = s.x := rfl
@[simp] theorem State.setTout_f (s : State) (v : Word) : (s.setTout v).f = s.f := rfl
@[simp] theorem State.setTout_pc (s : State) (v : Word) : (s.setTout v).pc = s.pc := rfl
@[simp] theorem State.setTout_iena (s : State) (v : Word) : (s.setTout v).iena = s.iena := rfl
@[simp] theorem State.setTout_usp (s : State) (v : Word) : (s.setTout v).usp = s.usp := rfl
@[simp] theorem State.setTout_ivec (s : State) (v : Word) : (s.setTout v).ivec = s.ivec := rfl
@[simp] theorem State.setTout_pdir (s : State) (v : Word) : (s.setTout v).pdir = s.pdir := rfl
@[simp] theorem State.setTout_pg (s : State) (v : Word) : (s.setTout v).pg = s.pg := rfl
@[simp] theorem State.setTout_tout (s : State) (v : Word) : (s.setTout v).tout = v := rfl
@[simp] theorem State.setTout_vadr (s : State) (v : Word) : (s.setTout v).vadr = s.vadr := rfl
@[simp] theorem State.setTout_memsz (s : State) (v : Word) : (s.setTout v).memsz = s.memsz := rfl
@[simp] theorem State.setTout_mem (s : State) (v : Word) : (s.setTout v).mem = s.mem := rfl
@[simp] theorem State.setTout_consoleIn (s : State) (v : Word) : (s.setTout v).consoleIn = s.consoleIn := rfl
@[simp] theorem State.setTout_consoleOut (s : State) (v : Word) : (s.setTout v).consoleOut = s.consoleOut := rfl
@[simp] theorem State.setTout_halted (s : State) (v : Word) : (s.setTout v).halted = s.halted := rfl
@[simp] theorem State.setTout_params (s : State) (v : Word) : (s.setTout v).params = s.params := rfl
@[simp] theorem State.setTout_draws (s : State) (v : Word) : (s.setTout v).draws = s.draws := rfl
@[simp] theorem State.setTout_readX (s : State) (v : Word) (r : Reg) : (s.setTout v).readX r = s.readX r := rfl
@[simp] theorem State.setTout_readF (s : State) (v : Word) (r : Reg) : (s.setTout v).readF r = s.readF r := rfl

@[simp] theorem State.setMem_x (s : State) (m : Memory) : (s.setMem m).x = s.x := rfl
@[simp] theorem State.setMem_f (s : State) (m : Memory) : (s.setMem m).f = s.f := rfl
@[simp] theorem State.setMem_pc (s : State) (m : Memory) : (s.setMem m).pc = s.pc := rfl
@[simp] theorem State.setMem_iena (s : State) (m : Memory) : (s.setMem m).iena = s.iena := rfl
@[simp] theorem State.setMem_usp (s : State) (m : Memory) : (s.setMem m).usp = s.usp := rfl
@[simp] theorem State.setMem_ivec (s : State) (m : Memory) : (s.setMem m).ivec = s.ivec := rfl
@[simp] theorem State.setMem_pdir (s : State) (m : Memory) : (s.setMem m).pdir = s.pdir := rfl
@[simp] theorem State.setMem_pg (s : State) (m : Memory) : (s.setMem m).pg = s.pg := rfl
@[simp] theorem State.setMem_tout (s : State) (m : Memory) : (s.setMem m).tout = s.tout := rfl
@[simp] theorem State.setMem_vadr (s : State) (m : Memory) : (s.setMem m).vadr = s.vadr := rfl
@[simp] theorem State.setMem_memsz (s : State) (m : Memory) : (s.setMem m).memsz = s.memsz := rfl
@[simp] theorem State.setMem_mem (s : State) (m : Memory) : (s.setMem m).mem = m := rfl
@[simp] theorem State.setMem_consoleIn (s : State) (m : Memory) : (s.setMem m).consoleIn = s.consoleIn := rfl
@[simp] theorem State.setMem_consoleOut (s : State) (m : Memory) : (s.setMem m).consoleOut = s.consoleOut := rfl
@[simp] theorem State.setMem_halted (s : State) (m : Memory) : (s.setMem m).halted = s.halted := rfl
@[simp] theorem State.setMem_params (s : State) (m : Memory) : (s.setMem m).params = s.params := rfl
@[simp] theorem State.setMem_draws (s : State) (m : Memory) : (s.setMem m).draws = s.draws := rfl
@[simp] theorem State.setMem_readX (s : State) (m : Memory) (r : Reg) : (s.setMem m).readX r = s.readX r := rfl
@[simp] theorem State.setMem_readF (s : State) (m : Memory) (r : Reg) : (s.setMem m).readF r = s.readF r := rfl

@[simp] theorem State.setConsoleIn_x (s : State) (c : ConsoleIn) : (s.setConsoleIn c).x = s.x := rfl
@[simp] theorem State.setConsoleIn_f (s : State) (c : ConsoleIn) : (s.setConsoleIn c).f = s.f := rfl
@[simp] theorem State.setConsoleIn_pc (s : State) (c : ConsoleIn) : (s.setConsoleIn c).pc = s.pc := rfl
@[simp] theorem State.setConsoleIn_iena (s : State) (c : ConsoleIn) : (s.setConsoleIn c).iena = s.iena := rfl
@[simp] theorem State.setConsoleIn_usp (s : State) (c : ConsoleIn) : (s.setConsoleIn c).usp = s.usp := rfl
@[simp] theorem State.setConsoleIn_ivec (s : State) (c : ConsoleIn) : (s.setConsoleIn c).ivec = s.ivec := rfl
@[simp] theorem State.setConsoleIn_pdir (s : State) (c : ConsoleIn) : (s.setConsoleIn c).pdir = s.pdir := rfl
@[simp] theorem State.setConsoleIn_pg (s : State) (c : ConsoleIn) : (s.setConsoleIn c).pg = s.pg := rfl
@[simp] theorem State.setConsoleIn_tout (s : State) (c : ConsoleIn) : (s.setConsoleIn c).tout = s.tout := rfl
@[simp] theorem State.setConsoleIn_vadr (s : State) (c : ConsoleIn) : (s.setConsoleIn c).vadr = s.vadr := rfl
@[simp] theorem State.setConsoleIn_memsz (s : State) (c : ConsoleIn) : (s.setConsoleIn c).memsz = s.memsz := rfl
@[simp] theorem State.setConsoleIn_mem (s : State) (c : ConsoleIn) : (s.setConsoleIn c).mem = s.mem := rfl
@[simp] theorem State.setConsoleIn_consoleIn (s : State) (c : ConsoleIn) : (s.setConsoleIn c).consoleIn = c := rfl
@[simp] theorem State.setConsoleIn_consoleOut (s : State) (c : ConsoleIn) : (s.setConsoleIn c).consoleOut = s.consoleOut := rfl
@[simp] theorem State.setConsoleIn_halted (s : State) (c : ConsoleIn) : (s.setConsoleIn c).halted = s.halted := rfl
@[simp] theorem State.setConsoleIn_params (s : State) (c : ConsoleIn) : (s.setConsoleIn c).params = s.params := rfl
@[simp] theorem State.setConsoleIn_draws (s : State) (c : ConsoleIn) : (s.setConsoleIn c).draws = s.draws := rfl
@[simp] theorem State.setConsoleIn_readX (s : State) (c : ConsoleIn) (r : Reg) : (s.setConsoleIn c).readX r = s.readX r := rfl
@[simp] theorem State.setConsoleIn_readF (s : State) (c : ConsoleIn) (r : Reg) : (s.setConsoleIn c).readF r = s.readF r := rfl

@[simp] theorem State.setConsoleOut_x (s : State) (bs : List Byte) : (s.setConsoleOut bs).x = s.x := rfl
@[simp] theorem State.setConsoleOut_f (s : State) (bs : List Byte) : (s.setConsoleOut bs).f = s.f := rfl
@[simp] theorem State.setConsoleOut_pc (s : State) (bs : List Byte) : (s.setConsoleOut bs).pc = s.pc := rfl
@[simp] theorem State.setConsoleOut_iena (s : State) (bs : List Byte) : (s.setConsoleOut bs).iena = s.iena := rfl
@[simp] theorem State.setConsoleOut_usp (s : State) (bs : List Byte) : (s.setConsoleOut bs).usp = s.usp := rfl
@[simp] theorem State.setConsoleOut_ivec (s : State) (bs : List Byte) : (s.setConsoleOut bs).ivec = s.ivec := rfl
@[simp] theorem State.setConsoleOut_pdir (s : State) (bs : List Byte) : (s.setConsoleOut bs).pdir = s.pdir := rfl
@[simp] theorem State.setConsoleOut_pg (s : State) (bs : List Byte) : (s.setConsoleOut bs).pg = s.pg := rfl
@[simp] theorem State.setConsoleOut_tout (s : State) (bs : List Byte) : (s.setConsoleOut bs).tout = s.tout := rfl
@[simp] theorem State.setConsoleOut_vadr (s : State) (bs : List Byte) : (s.setConsoleOut bs).vadr = s.vadr := rfl
@[simp] theorem State.setConsoleOut_memsz (s : State) (bs : List Byte) : (s.setConsoleOut bs).memsz = s.memsz := rfl
@[simp] theorem State.setConsoleOut_mem (s : State) (bs : List Byte) : (s.setConsoleOut bs).mem = s.mem := rfl
@[simp] theorem State.setConsoleOut_consoleIn (s : State) (bs : List Byte) : (s.setConsoleOut bs).consoleIn = s.consoleIn := rfl
@[simp] theorem State.setConsoleOut_consoleOut (s : State) (bs : List Byte) : (s.setConsoleOut bs).consoleOut = bs := rfl
@[simp] theorem State.setConsoleOut_halted (s : State) (bs : List Byte) : (s.setConsoleOut bs).halted = s.halted := rfl
@[simp] theorem State.setConsoleOut_params (s : State) (bs : List Byte) : (s.setConsoleOut bs).params = s.params := rfl
@[simp] theorem State.setConsoleOut_draws (s : State) (bs : List Byte) : (s.setConsoleOut bs).draws = s.draws := rfl
@[simp] theorem State.setConsoleOut_readX (s : State) (bs : List Byte) (r : Reg) : (s.setConsoleOut bs).readX r = s.readX r := rfl
@[simp] theorem State.setConsoleOut_readF (s : State) (bs : List Byte) (r : Reg) : (s.setConsoleOut bs).readF r = s.readF r := rfl

@[simp] theorem State.setHalted_x (s : State) : (s.setHalted).x = s.x := rfl
@[simp] theorem State.setHalted_f (s : State) : (s.setHalted).f = s.f := rfl
@[simp] theorem State.setHalted_pc (s : State) : (s.setHalted).pc = s.pc := rfl
@[simp] theorem State.setHalted_iena (s : State) : (s.setHalted).iena = s.iena := rfl
@[simp] theorem State.setHalted_usp (s : State) : (s.setHalted).usp = s.usp := rfl
@[simp] theorem State.setHalted_ivec (s : State) : (s.setHalted).ivec = s.ivec := rfl
@[simp] theorem State.setHalted_pdir (s : State) : (s.setHalted).pdir = s.pdir := rfl
@[simp] theorem State.setHalted_pg (s : State) : (s.setHalted).pg = s.pg := rfl
@[simp] theorem State.setHalted_tout (s : State) : (s.setHalted).tout = s.tout := rfl
@[simp] theorem State.setHalted_vadr (s : State) : (s.setHalted).vadr = s.vadr := rfl
@[simp] theorem State.setHalted_memsz (s : State) : (s.setHalted).memsz = s.memsz := rfl
@[simp] theorem State.setHalted_mem (s : State) : (s.setHalted).mem = s.mem := rfl
@[simp] theorem State.setHalted_consoleIn (s : State) : (s.setHalted).consoleIn = s.consoleIn := rfl
@[simp] theorem State.setHalted_consoleOut (s : State) : (s.setHalted).consoleOut = s.consoleOut := rfl
@[simp] theorem State.setHalted_halted (s : State) : (s.setHalted).halted = true := rfl
@[simp] theorem State.setHalted_params (s : State) : (s.setHalted).params = s.params := rfl
@[simp] theorem State.setHalted_draws (s : State) : (s.setHalted).draws = s.draws := rfl
@[simp] theorem State.setHalted_readX (s : State) (r : Reg) : (s.setHalted).readX r = s.readX r := rfl
@[simp] theorem State.setHalted_readF (s : State) (r : Reg) : (s.setHalted).readF r = s.readF r := rfl

@[simp] theorem State.bumpDraws_x (s : State) : (s.bumpDraws).x = s.x := rfl
@[simp] theorem State.bumpDraws_f (s : State) : (s.bumpDraws).f = s.f := rfl
@[simp] theorem State.bumpDraws_pc (s : State) : (s.bumpDraws).pc = s.pc := rfl
@[simp] theorem State.bumpDraws_iena (s : State) : (s.bumpDraws).iena = s.iena := rfl
@[simp] theorem State.bumpDraws_usp (s : State) : (s.bumpDraws).usp = s.usp := rfl
@[simp] theorem State.bumpDraws_ivec (s : State) : (s.bumpDraws).ivec = s.ivec := rfl
@[simp] theorem State.bumpDraws_pdir (s : State) : (s.bumpDraws).pdir = s.pdir := rfl
@[simp] theorem State.bumpDraws_pg (s : State) : (s.bumpDraws).pg = s.pg := rfl
@[simp] theorem State.bumpDraws_tout (s : State) : (s.bumpDraws).tout = s.tout := rfl
@[simp] theorem State.bumpDraws_vadr (s : State) : (s.bumpDraws).vadr = s.vadr := rfl
@[simp] theorem State.bumpDraws_memsz (s : State) : (s.bumpDraws).memsz = s.memsz := rfl
@[simp] theorem State.bumpDraws_mem (s : State) : (s.bumpDraws).mem = s.mem := rfl
@[simp] theorem State.bumpDraws_consoleIn (s : State) : (s.bumpDraws).consoleIn = s.consoleIn := rfl
@[simp] theorem State.bumpDraws_consoleOut (s : State) : (s.bumpDraws).consoleOut = s.consoleOut := rfl
@[simp] theorem State.bumpDraws_halted (s : State) : (s.bumpDraws).halted = s.halted := rfl
@[simp] theorem State.bumpDraws_params (s : State) : (s.bumpDraws).params = s.params := rfl
@[simp] theorem State.bumpDraws_draws (s : State) : (s.bumpDraws).draws = s.draws + 1 := rfl
@[simp] theorem State.bumpDraws_readX (s : State) (r : Reg) : (s.bumpDraws).readX r = s.readX r := rfl
@[simp] theorem State.bumpDraws_readF (s : State) (r : Reg) : (s.bumpDraws).readF r = s.readF r := rfl

@[simp] theorem State.setF_x (s : State) (i : Reg) (v : Long) : (s.setF i v).x = s.x := rfl
@[simp] theorem State.setF_pc (s : State) (i : Reg) (v : Long) : (s.setF i v).pc = s.pc := rfl
@[simp] theorem State.setF_iena (s : State) (i : Reg) (v : Long) : (s.setF i v).iena = s.iena := rfl
@[simp] theorem State.setF_usp (s : State) (i : Reg) (v : Long) : (s.setF i v).usp = s.usp := rfl
@[simp] theorem State.setF_ivec (s : State) (i : Reg) (v : Long) : (s.setF i v).ivec = s.ivec := rfl
@[simp] theorem State.setF_pdir (s : State) (i : Reg) (v : Long) : (s.setF i v).pdir = s.pdir := rfl
@[simp] theorem State.setF_pg (s : State) (i : Reg) (v : Long) : (s.setF i v).pg = s.pg := rfl
@[simp] theorem State.setF_tout (s : State) (i : Reg) (v : Long) : (s.setF i v).tout = s.tout := rfl
@[simp] theorem State.setF_vadr (s : State) (i : Reg) (v : Long) : (s.setF i v).vadr = s.vadr := rfl
@[simp] theorem State.setF_memsz (s : State) (i : Reg) (v : Long) : (s.setF i v).memsz = s.memsz := rfl
@[simp] theorem State.setF_mem (s : State) (i : Reg) (v : Long) : (s.setF i v).mem = s.mem := rfl
@[simp] theorem State.setF_consoleIn (s : State) (i : Reg) (v : Long) : (s.setF i v).consoleIn = s.consoleIn := rfl
@[simp] theorem State.setF_consoleOut (s : State) (i : Reg) (v : Long) : (s.setF i v).consoleOut = s.consoleOut := rfl
@[simp] theorem State.setF_halted (s : State) (i : Reg) (v : Long) : (s.setF i v).halted = s.halted := rfl
@[simp] theorem State.setF_params (s : State) (i : Reg) (v : Long) : (s.setF i v).params = s.params := rfl
@[simp] theorem State.setF_draws (s : State) (i : Reg) (v : Long) : (s.setF i v).draws = s.draws := rfl
@[simp] theorem State.setF_f (s : State) (i : Reg) (v : Long) : (s.setF i v).f = s.f.set i.val v := rfl
@[simp] theorem State.setF_readX (s : State) (i r : Reg) (v : Long) : (s.setF i v).readX r = s.readX r := rfl

/-- Reading a floating-point register after a write: the written value at its index, the old one elsewhere. -/
@[simp] theorem State.setF_readF (s : State) (i r : Reg) (v : Long) :
    (s.setF i v).readF r = if r = i then v else s.readF r := by
  simp only [State.readF, State.setF, Vector.getElem_set, Fin.val_inj, eq_comm]

@[simp] theorem State.setX_f (s : State) (i : Reg) (v : Word) : (s.setX i v).f = s.f := by
  unfold State.setX; split <;> rfl
@[simp] theorem State.setX_pc (s : State) (i : Reg) (v : Word) : (s.setX i v).pc = s.pc := by
  unfold State.setX; split <;> rfl
@[simp] theorem State.setX_iena (s : State) (i : Reg) (v : Word) : (s.setX i v).iena = s.iena := by
  unfold State.setX; split <;> rfl
@[simp] theorem State.setX_usp (s : State) (i : Reg) (v : Word) : (s.setX i v).usp = s.usp := by
  unfold State.setX; split <;> rfl
@[simp] theorem State.setX_ivec (s : State) (i : Reg) (v : Word) : (s.setX i v).ivec = s.ivec := by
  unfold State.setX; split <;> rfl
@[simp] theorem State.setX_pdir (s : State) (i : Reg) (v : Word) : (s.setX i v).pdir = s.pdir := by
  unfold State.setX; split <;> rfl
@[simp] theorem State.setX_pg (s : State) (i : Reg) (v : Word) : (s.setX i v).pg = s.pg := by
  unfold State.setX; split <;> rfl
@[simp] theorem State.setX_tout (s : State) (i : Reg) (v : Word) : (s.setX i v).tout = s.tout := by
  unfold State.setX; split <;> rfl
@[simp] theorem State.setX_vadr (s : State) (i : Reg) (v : Word) : (s.setX i v).vadr = s.vadr := by
  unfold State.setX; split <;> rfl
@[simp] theorem State.setX_memsz (s : State) (i : Reg) (v : Word) : (s.setX i v).memsz = s.memsz := by
  unfold State.setX; split <;> rfl
@[simp] theorem State.setX_mem (s : State) (i : Reg) (v : Word) : (s.setX i v).mem = s.mem := by
  unfold State.setX; split <;> rfl
@[simp] theorem State.setX_consoleIn (s : State) (i : Reg) (v : Word) : (s.setX i v).consoleIn = s.consoleIn := by
  unfold State.setX; split <;> rfl
@[simp] theorem State.setX_consoleOut (s : State) (i : Reg) (v : Word) : (s.setX i v).consoleOut = s.consoleOut := by
  unfold State.setX; split <;> rfl
@[simp] theorem State.setX_halted (s : State) (i : Reg) (v : Word) : (s.setX i v).halted = s.halted := by
  unfold State.setX; split <;> rfl
@[simp] theorem State.setX_params (s : State) (i : Reg) (v : Word) : (s.setX i v).params = s.params := by
  unfold State.setX; split <;> rfl
@[simp] theorem State.setX_draws (s : State) (i : Reg) (v : Word) : (s.setX i v).draws = s.draws := by
  unfold State.setX; split <;> rfl
@[simp] theorem State.setX_readF (s : State) (i r : Reg) (v : Word) : (s.setX i v).readF r = s.readF r := by
  simp [State.readF]

/-- R0 reads as zero (R32). -/
@[simp] theorem State.readX_zero (s : State) : s.readX 0 = 0#32 := rfl

/-- Reading an indexed register after a write: the written value at its index unless that is R0, the old one
elsewhere (R11, R32). -/
@[simp] theorem State.setX_readX (s : State) (i r : Reg) (v : Word) :
    (s.setX i v).readX r = if r = i ∧ i ≠ 0 then v else s.readX r := by
  by_cases hi : i = 0
  · simp [State.setX, hi]
  · by_cases hr : r = 0
    · subst hr
      simp [State.readX, Ne.symm hi]
    · by_cases h : r = i
      · subst h
        simp [State.readX, State.setX, hr]
      · have h' : i.val ≠ r.val := fun e => h (Fin.ext e.symm)
        simp [State.readX, State.setX, hi, hr, h, h']

/-- A write to R0 is discarded (R32). -/
@[simp] theorem State.setX_zero (s : State) (v : Word) : s.setX 0 v = s := rfl

/-- The stored slot of R0 is never written (R32). -/
@[simp] theorem State.setX_slot_zero (s : State) (i : Reg) (v : Word) : (s.setX i v).x[0] = s.x[0] := by
  by_cases hi : i = 0
  · simp [hi]
  · have h' : i.val ≠ 0 := fun e => hi (Fin.ext e)
    simp [State.setX, hi, h']

@[simp] theorem State.advance_x (s : State) : s.advance.x = s.x := rfl
@[simp] theorem State.advance_f (s : State) : s.advance.f = s.f := rfl
@[simp] theorem State.advance_pc (s : State) : s.advance.pc = s.pc + 4#32 := rfl
@[simp] theorem State.advance_iena (s : State) : s.advance.iena = s.iena := rfl
@[simp] theorem State.advance_usp (s : State) : s.advance.usp = s.usp := rfl
@[simp] theorem State.advance_ivec (s : State) : s.advance.ivec = s.ivec := rfl
@[simp] theorem State.advance_pdir (s : State) : s.advance.pdir = s.pdir := rfl
@[simp] theorem State.advance_pg (s : State) : s.advance.pg = s.pg := rfl
@[simp] theorem State.advance_tout (s : State) : s.advance.tout = s.tout := rfl
@[simp] theorem State.advance_vadr (s : State) : s.advance.vadr = s.vadr := rfl
@[simp] theorem State.advance_memsz (s : State) : s.advance.memsz = s.memsz := rfl
@[simp] theorem State.advance_mem (s : State) : s.advance.mem = s.mem := rfl
@[simp] theorem State.advance_consoleIn (s : State) : s.advance.consoleIn = s.consoleIn := rfl
@[simp] theorem State.advance_consoleOut (s : State) : s.advance.consoleOut = s.consoleOut := rfl
@[simp] theorem State.advance_halted (s : State) : s.advance.halted = s.halted := rfl
@[simp] theorem State.advance_params (s : State) : s.advance.params = s.params := rfl
@[simp] theorem State.advance_draws (s : State) : s.advance.draws = s.draws := rfl
@[simp] theorem State.advance_readX (s : State) (r : Reg) : s.advance.readX r = s.readX r := rfl
@[simp] theorem State.advance_readF (s : State) (r : Reg) : s.advance.readF r = s.readF r := rfl

@[simp] theorem State.drawX_f (s : State) (r : Reg) : (s.drawX r).f = s.f := by simp [State.drawX]
@[simp] theorem State.drawX_pc (s : State) (r : Reg) : (s.drawX r).pc = s.pc := by simp [State.drawX]
@[simp] theorem State.drawX_iena (s : State) (r : Reg) : (s.drawX r).iena = s.iena := by simp [State.drawX]
@[simp] theorem State.drawX_usp (s : State) (r : Reg) : (s.drawX r).usp = s.usp := by simp [State.drawX]
@[simp] theorem State.drawX_ivec (s : State) (r : Reg) : (s.drawX r).ivec = s.ivec := by simp [State.drawX]
@[simp] theorem State.drawX_pdir (s : State) (r : Reg) : (s.drawX r).pdir = s.pdir := by simp [State.drawX]
@[simp] theorem State.drawX_pg (s : State) (r : Reg) : (s.drawX r).pg = s.pg := by simp [State.drawX]
@[simp] theorem State.drawX_tout (s : State) (r : Reg) : (s.drawX r).tout = s.tout := by simp [State.drawX]
@[simp] theorem State.drawX_vadr (s : State) (r : Reg) : (s.drawX r).vadr = s.vadr := by simp [State.drawX]
@[simp] theorem State.drawX_memsz (s : State) (r : Reg) : (s.drawX r).memsz = s.memsz := by simp [State.drawX]
@[simp] theorem State.drawX_mem (s : State) (r : Reg) : (s.drawX r).mem = s.mem := by simp [State.drawX]
@[simp] theorem State.drawX_consoleIn (s : State) (r : Reg) : (s.drawX r).consoleIn = s.consoleIn := by simp [State.drawX]
@[simp] theorem State.drawX_consoleOut (s : State) (r : Reg) : (s.drawX r).consoleOut = s.consoleOut := by simp [State.drawX]
@[simp] theorem State.drawX_halted (s : State) (r : Reg) : (s.drawX r).halted = s.halted := by simp [State.drawX]
@[simp] theorem State.drawX_params (s : State) (r : Reg) : (s.drawX r).params = s.params := by simp [State.drawX]
@[simp] theorem State.drawX_draws (s : State) (r : Reg) : (s.drawX r).draws = s.draws + 1 := by simp [State.drawX]
@[simp] theorem State.drawX_readF (s : State) (r q : Reg) : (s.drawX r).readF q = s.readF q := by simp [State.drawX]

/-- The registers after a free word is drawn into one of them (R340). -/
@[simp] theorem State.drawX_readX (s : State) (r q : Reg) :
    (s.drawX r).readX q = if q = r ∧ r ≠ 0 then Config.freeWord s.draws else s.readX q := by
  simp [State.drawX]

@[simp] theorem State.drawX_slot_zero (s : State) (r : Reg) : (s.drawX r).x[0] = s.x[0] := by
  show (s.setX r _).x[0] = s.x[0]
  exact State.setX_slot_zero s r _

end Sys2Proof.Machine
end

