-- ==== Sys2Proof/Laws/Ops.lean ====
section
/-! SUPPORT. For each shared operation, once, everything it can do: what follows from its answering a next state. -/

namespace Sys2Proof.Machine

/-! ## Ranges -/

/-- No bad address: every address of the range is allowed. -/
theorem firstBad_eq_none {ok : Word → Bool} {a : Word} {n : Nat} :
    firstBad ok a n = none ↔ ∀ k, k < n → ok (wrapAddr a k) = true := by
  induction n generalizing a with
  | zero => simp [firstBad]
  | succ n ih =>
    unfold firstBad
    constructor
    · intro h k hk
      split at h
      · cases k with
        | zero => simpa
        | succ k =>
          rw [← wrapAddr_succ]
          exact ih.mp h k (by omega)
      · simp at h
    · intro h
      have h0 := h 0 (by omega)
      rw [wrapAddr_zero] at h0
      rw [if_pos h0, ih]
      intro k hk
      rw [wrapAddr_succ]
      exact h (k + 1) (by omega)

/-- The bad address is the first one of the range that is not allowed. -/
theorem firstBad_eq_some {ok : Word → Bool} {a b : Word} {n : Nat} :
    firstBad ok a n = some b ↔
      ∃ k, k < n ∧ b = wrapAddr a k ∧ ok (wrapAddr a k) = false ∧ ∀ j, j < k → ok (wrapAddr a j) = true := by
  induction n generalizing a with
  | zero => simp [firstBad]
  | succ n ih =>
    unfold firstBad
    split
    · next h0 =>
      rw [ih]
      constructor
      · rintro ⟨k, hk, hb, ho, hj⟩
        rw [wrapAddr_succ] at hb ho
        refine ⟨k + 1, by omega, hb, ho, fun j hj' => ?_⟩
        cases j with
        | zero => simpa
        | succ j =>
          rw [← wrapAddr_succ]
          exact hj j (by omega)
      · rintro ⟨k, hk, hb, ho, hj⟩
        cases k with
        | zero =>
          rw [wrapAddr_zero, h0] at ho
          cases ho
        | succ k =>
          refine ⟨k, by omega, by rw [wrapAddr_succ]; exact hb, by rw [wrapAddr_succ]; exact ho, fun j hj' => ?_⟩
          rw [wrapAddr_succ]
          exact hj (j + 1) (by omega)
    · next h0 =>
      constructor
      · rintro h
        cases h
        exact ⟨0, by omega, by simp, by simpa using h0, fun j hj => absurd hj (by omega)⟩
      · rintro ⟨k, hk, hb, ho, hj⟩
        cases k with
        | zero => simp [hb]
        | succ k =>
          have := hj 0 (by omega)
          rw [wrapAddr_zero] at this
          exact absurd this h0

/-- A range may be read where all of it lies inside memory (R80). -/
theorem firstBad_mayRead {s : State} {a : Word} {n : Nat} :
    firstBad s.mayRead a n = none ↔ s.InMemory a n := by
  rw [firstBad_eq_none]
  simp [State.mayRead, State.InMemory]

/-- A range may be stored to where all of it lies inside memory and none of it in declared code (R80, R90). -/
theorem firstBad_mayStore {s : State} {a : Word} {n : Nat} :
    firstBad s.mayStore a n = none ↔ s.Storable a n := by
  rw [firstBad_eq_none]
  simp only [State.mayStore, State.Storable, State.InMemory, State.NotCode, State.isCode, Bool.and_eq_true,
    decide_eq_true_eq, Bool.not_eq_true', Bool.and_eq_false_iff, decide_eq_false_iff_not, List.any_eq_false]
  constructor
  · intro h
    refine ⟨fun k hk => (h k hk).1, fun hf k hk r hr hc => ?_⟩
    rcases (h k hk).2 with h' | h'
    · exact h' hf
    · exact h' r hr hc
  · rintro ⟨h1, h2⟩ k hk
    refine ⟨h1 k hk, ?_⟩
    by_cases hf : s.params.ifetchCoherent = .faultOnStoreToCode
    · exact .inr fun r hr hc => h2 hf k hk r hr hc
    · exact .inl hf

theorem State.alignedData_iff {s : State} {a : Word} {n : Nat} : s.alignedData a n = true ↔ s.AlignedFor a n := by
  simp [State.alignedData, State.AlignedFor]

/-! ## Accesses -/

/-- Everything a load can do (R76, R80). -/
theorem State.load_cases (s : State) (a : Word) (n : Nat) :
    (s.AlignedFor a n ∧ s.InMemory a n ∧ s.load a n = .ok (leValue (Memory.readBytes s.mem a n))) ∨
    (s.AlignedFor a n ∧ ¬ s.InMemory a n ∧ s.load a n = .error (.accessFault a n .load)) ∨
    (¬ s.AlignedFor a n ∧ s.load a n = .error (.misaligned a n .load)) := by
  unfold State.load
  rw [← State.alignedData_iff, ← firstBad_mayRead]
  split
  · split <;> simp_all
  · simp_all

/-- Everything a store can do (R76, R80, R90). -/
theorem State.store_cases (s : State) (a : Word) (n v : Nat) :
    (s.AlignedFor a n ∧ s.Storable a n ∧
      s.store a n v = .ok (s.setMem (Memory.writeBytes s.mem a (leBytes n v)))) ∨
    (s.AlignedFor a n ∧ ¬ s.Storable a n ∧ s.store a n v = .error (.accessFault a n .store)) ∨
    (¬ s.AlignedFor a n ∧ s.store a n v = .error (.misaligned a n .store)) := by
  unfold State.store
  rw [← State.alignedData_iff, ← firstBad_mayStore]
  split
  · split <;> simp_all
  · simp_all

/-- A load that goes on: the access is allowed and what follows gets its value. -/
theorem State.loadThen_next {s t : State} {a : Word} {n : Nat} {k : Nat → Out} (h : s.loadThen a n k = .next t) :
    s.AlignedFor a n ∧ s.InMemory a n ∧ k (leValue (Memory.readBytes s.mem a n)) = .next t := by
  unfold State.loadThen at h
  rcases s.load_cases a n with ⟨h1, h2, e⟩ | ⟨h1, h2, e⟩ | ⟨h1, e⟩ <;> rw [e] at h
  · exact ⟨h1, h2, h⟩
  · cases h
  · cases h

/-- A store that goes on: the access is allowed and what follows gets the state after it. -/
theorem State.storeThen_next {s t : State} {a : Word} {n v : Nat} {k : State → Out}
    (h : s.storeThen a n v k = .next t) :
    s.AlignedFor a n ∧ s.Storable a n ∧ k (s.setMem (Memory.writeBytes s.mem a (leBytes n v))) = .next t := by
  unfold State.storeThen at h
  rcases s.store_cases a n v with ⟨h1, h2, e⟩ | ⟨h1, h2, e⟩ | ⟨h1, e⟩ <;> rw [e] at h
  · exact ⟨h1, h2, h⟩
  · cases h
  · cases h

/-- An allowed load goes on. -/
theorem State.loadThen_eq {s : State} {a : Word} {n : Nat} (k : Nat → Out) (h1 : s.AlignedFor a n)
    (h2 : s.InMemory a n) : s.loadThen a n k = k (leValue (Memory.readBytes s.mem a n)) := by
  unfold State.loadThen
  rcases s.load_cases a n with ⟨_, _, e⟩ | ⟨_, h, _⟩ | ⟨h, _⟩
  · rw [e]
  · exact absurd h2 h
  · exact absurd h1 h

/-- An allowed store goes on. -/
theorem State.storeThen_eq {s : State} {a : Word} {n v : Nat} (k : State → Out) (h1 : s.AlignedFor a n)
    (h2 : s.Storable a n) :
    s.storeThen a n v k = k (s.setMem (Memory.writeBytes s.mem a (leBytes n v))) := by
  unfold State.storeThen
  rcases s.store_cases a n v with ⟨_, _, e⟩ | ⟨_, h, _⟩ | ⟨h, _⟩
  · rw [e]
  · exact absurd h2 h
  · exact absurd h1 h

/-- Everything a fetch can do (R77, R80). -/
theorem State.fetch_cases (s : State) :
    (s.Fetchable ∧ s.fetch = .ok (Memory.readBytes s.mem s.pc 4)) ∨
    (s.pc.toNat % 4 = 0 ∧ ¬ s.InMemory s.pc 4 ∧ s.fetch = .error (.accessFault s.pc 4 .fetch)) ∨
    (s.pc.toNat % 4 ≠ 0 ∧ s.fetch = .error (.misaligned s.pc 4 .fetch)) := by
  unfold State.fetch State.Fetchable
  rw [← firstBad_mayRead]
  split
  · split <;> simp_all
  · simp_all

@[simp] theorem length_leBytes (n v : Nat) : (leBytes n v).length = n := by
  induction n generalizing v with
  | zero => rfl
  | succ n ih => simp [leBytes, ih]

/-! ## The ends of instructions -/

theorem State.toNext_eq (s : State) : s.toNext = .next s.advance := rfl

theorem State.writeX_next {s t : State} {ra : Reg} {v : Word} (h : s.writeX ra v = .next t) :
    t = (s.setX ra v).advance := by
  cases h; rfl

theorem State.writeF_next {s t : State} {fa : Reg} {v : Long} (h : s.writeF fa v = .next t) :
    t = (s.setF fa v).advance := by
  cases h; rfl

/-- A branch goes to its target or on, and changes the pc alone (R200). -/
theorem State.branch_next {s t : State} {c : Bool} {imm : Half} (h : s.branch c imm = .next t) :
    (c = true ∧ t = s.setPc (s.pcSrc + branchOffset imm)) ∨ (c = false ∧ t = s.advance) := by
  unfold State.branch at h
  split at h
  · cases h
    exact .inl ⟨‹_›, rfl⟩
  · cases h
    exact .inr ⟨by simp_all, rfl⟩

/-- A defined result is written; an undefined one is a free word under any value, a stop under fault (R153, R154). -/
theorem State.writeArith_next {s t : State} {u : UndefinedResult} {ra : Reg} {r : Except ArithKind Word}
    (h : s.writeArith u ra r = .next t) :
    (∃ v, r = .ok v ∧ t = (s.setX ra v).advance) ∨
      (∃ k, r = .error k ∧ u = .anyValue ∧ t = (s.drawX ra).advance) := by
  unfold State.writeArith at h
  split at h
  · exact .inl ⟨_, rfl, State.writeX_next h⟩
  · split at h
    · cases h
    · cases h
      exact .inr ⟨_, rfl, rfl, rfl⟩

/-- A result is written, or a NaN of no known bits (R261). -/
theorem State.writeFp_next {s t : State} {fa : Reg} {r : Option Long} (h : s.writeFp fa r = .next t) :
    (∃ v, r = some v ∧ t = (s.setF fa v).advance) ∨
      (r = none ∧ t = (s.setF fa (FP.anyNan (Config.freeNan s.draws))).bumpDraws.advance) := by
  unfold State.writeFp at h
  split at h
  · exact .inl ⟨_, rfl, State.writeF_next h⟩
  · cases h
    exact .inr ⟨rfl, rfl⟩

/-- A conversion without a result stops (R300). -/
theorem State.writeConverted_next {s t : State} {ra : Reg} {r : Option Word} (h : s.writeConverted ra r = .next t) :
    ∃ v, r = some v ∧ t = (s.setX ra v).advance := by
  unfold State.writeConverted at h
  split at h
  · exact ⟨_, rfl, State.writeX_next h⟩
  · cases h

/-- A control write goes on where it is recorded (log 4). -/
theorem controlWrite_next {c : ControlWrites} {t w : State} {m : String} (h : controlWrite c m w = .next t) :
    c = .record ∧ t = w.advance := by
  unfold controlWrite at h
  split at h
  · cases h
  · cases h
    exact ⟨rfl, rfl⟩

/-- A stack access goes on under the candidate, at a multiple of 8 (R241). -/
theorem State.stackSlot_next {s t : State} {m : String} {a : Word} {k : Out} (h : s.stackSlot m a k = .next t) :
    s.params.stackSemantics = .candidate ∧ a.toNat % 8 = 0 ∧ k = .next t := by
  unfold State.stackSlot at h
  split at h
  · cases h
  · split at h
    · exact ⟨‹_›, ‹_›, h⟩
    · cases h

/-- The state after a block instruction (R340). -/
theorem State.blockStore_next {s t : State} {ra rb rc : Reg} {d : Word} {bs : List Byte}
    (h : s.blockStore ra rb rc d bs = .next t) :
    t = ((s.setMem (Memory.writeBytes s.mem d bs)).drawNamed ra rb rc).advance := by
  cases h; rfl

/-- Going on from `a` by the distance to `d` gives `d`. -/
theorem wrapAddr_sub (d a : Word) : wrapAddr a (d - a).toNat = d := by
  simp only [wrapAddr, BitVec.ofNat_toNat, BitVec.setWidth_eq]
  rw [BitVec.add_comm]
  exact BitVec.sub_add_cancel d a

/-- The ranges that `rangesOverlap` tells are those that share a byte (R342). -/
theorem rangesOverlap_iff {d src : Word} {n : Nat} (hn : n < 2 ^ 32) :
    rangesOverlap d src n = true ↔ SharesByte d src n := by
  simp only [rangesOverlap, SharesByte, Bool.and_eq_true, Bool.or_eq_true, decide_eq_true_eq]
  constructor
  · rintro ⟨h0, h | h⟩
    · exact ⟨0, (d - src).toNat, h0, h, (wrapAddr_sub d src).symm ▸ wrapAddr_zero d⟩
    · exact ⟨(src - d).toNat, 0, h, h0, (wrapAddr_sub src d).trans (wrapAddr_zero src).symm⟩
  · rintro ⟨j, k, hj, hk, h⟩
    have e := congrArg BitVec.toNat h
    simp only [wrapAddr, BitVec.toNat_add, BitVec.toNat_ofNat, BitVec.toNat_sub] at e ⊢
    have hd := d.isLt
    have hs := src.isLt
    refine ⟨by omega, ?_⟩
    omega

/-- The record in force depends on the parameters alone (R260). -/
theorem State.fp_congr {s t : State} (h : t.params = s.params) : t.fp = s.fp := by
  rw [State.fp, State.fp, h]

/-- Under the default the record has the default contents (R7). -/
theorem State.fp_binary64 {s : State} (h : s.params.fp = .binary64) : s.fp = FP.binary64 := by
  rw [State.fp, h]
  rfl

/-- CONSOLE_IN gives a listed byte, then a byte of its infinite tail, or nothing (R51). -/
theorem ConsoleIn.take_cases (c : ConsoleIn) :
    (c = ⟨[], .ends⟩ ∧ c.take = none) ∨
    (∃ b bs e, c = ⟨b :: bs, e⟩ ∧ c.take = some (b, ⟨bs, e⟩)) ∨
      ∃ k pos, c = ⟨[], .endless k pos⟩ ∧
        c.take = some (Config.consoleStream k pos, ⟨[], .endless k (pos + 1)⟩) := by
  rcases c with ⟨_ | ⟨b, bs⟩, _ | ⟨k, pos⟩⟩
  · exact .inl ⟨rfl, rfl⟩
  · exact .inr (.inr ⟨k, pos, rfl, rfl⟩)
  · exact .inr (.inl ⟨b, bs, _, rfl, rfl⟩)
  · exact .inr (.inl ⟨b, bs, _, rfl, rfl⟩)

/-- BIN takes a byte, or finds none (R316). -/
theorem execBin_next {s t : State} {rc : Reg} (h : execBin rc s = .next t) :
    (s.consoleIn.take = none ∧ t = (s.setX rc 0xFFFFFFFF#32).advance) ∨
      ∃ b c, s.consoleIn.take = some (b, c) ∧ t = ((s.setConsoleIn c).setX rc (zext32 8 b)).advance := by
  unfold execBin at h
  split at h
  · exact .inl ⟨‹_›, State.writeX_next h⟩
  · exact .inr ⟨_, _, ‹_›, State.writeX_next h⟩

/-- MCPY copies between ranges that share no byte, when every byte may be accessed (R342). -/
theorem execMcpy_next {s t : State} {ra rb rc : Reg} (h : execMcpy ra rb rc s = .next t) :
    ¬ SharesByte (s.readX ra) (s.readX rb) (s.readX rc).toNat ∧
      s.InMemory (s.readX rb) (s.readX rc).toNat ∧ s.Storable (s.readX ra) (s.readX rc).toNat ∧
      t = ((s.setMem (Memory.writeBytes s.mem (s.readX ra)
        (Memory.readBytes s.mem (s.readX rb) (s.readX rc).toNat))).drawNamed ra rb rc).advance := by
  unfold execMcpy at h
  simp only at h
  rw [← rangesOverlap_iff (s.readX rc).isLt, ← firstBad_mayRead, ← firstBad_mayStore]
  split at h
  · cases h
  · split at h
    · cases h
    · split at h
      · cases h
      · exact ⟨‹_›, ‹_›, ‹_›, State.blockStore_next h⟩

/-- MSET fills where every byte may be stored to (R345). -/
theorem execMset_next {s t : State} {ra rb rc : Reg} (h : execMset ra rb rc s = .next t) :
    s.Storable (s.readX ra) (s.readX rc).toNat ∧
      t = ((s.setMem (Memory.writeBytes s.mem (s.readX ra)
        (List.replicate (s.readX rc).toNat ((s.readX rb).extractLsb' 0 8)))).drawNamed ra rb rc).advance := by
  unfold execMset at h
  simp only at h
  rw [← firstBad_mayStore]
  split at h
  · cases h
  · exact ⟨‹_›, State.blockStore_next h⟩

end Sys2Proof.Machine
end

