-- ==== Sys2Proof/Laws/Exec.lean ====
section
/-! SUPPORT. Everything an instruction can do, once: the shapes a next state can have. Statements over all instructions
follow by cases on the shape and never unfold a meaning. -/

namespace Sys2Proof.Machine

/-- The next states of `exec i s`. -/
inductive ExecShape (i : Instr) (s : State) : State → Prop where
  | plain (h : i = .nop) : ExecShape i s s.advance
  | writeX (ra : Reg) (v : Word) (h : ra ∈ xTargets i) : ExecShape i s (s.setX ra v).advance
  | drawX (ra : Reg) (h : ra ∈ xTargets i) : ExecShape i s (s.drawX ra).advance
  | writeF (fa : Reg) (v : Long) (h : fa ∈ fTargets i) : ExecShape i s (s.setF fa v).advance
  | writeNan (fa : Reg) (h : fa ∈ fTargets i) :
      ExecShape i s (s.setF fa (FP.anyNan (Config.freeNan s.draws))).bumpDraws.advance
  | goOn : ExecShape i s s.advance
  | branch (imm : Half) : ExecShape i s (s.setPc (s.pcSrc + branchOffset imm))
  | jump (a : BitVec 24) : ExecShape i s (s.setPc (s.pcSrc.extractLsb' 26 6 ++ a ++ 0#2))
  | jumpReg (ra : Reg) (h : i = .jr ra) : ExecShape i s (s.setPc (s.readX ra))
  | store (d : Word) (bs : List Byte) (h : storesMemory i = true) (ok : s.Storable d bs.length) :
      ExecShape i s (s.setMem (Memory.writeBytes s.mem d bs)).advance
  | push (bs : List Byte) (h : storesMemory i = true) (hx : spIndex ∈ xTargets i)
      (ok : s.Storable s.pushAddr bs.length) :
      ExecShape i s ((s.setMem (Memory.writeBytes s.mem s.pushAddr bs)).setX spIndex s.pushAddr).advance
  | popX (ra : Reg) (v : Word) (h : ra ∈ xTargets i) (hx : spIndex ∈ xTargets i) :
      ExecShape i s ((s.setX spIndex (s.popAddr + 8#32)).setX ra v).advance
  | popF (fa : Reg) (v : Long) (h : fa ∈ fTargets i) (hx : spIndex ∈ xTargets i) :
      ExecShape i s ((s.setX spIndex (s.popAddr + 8#32)).setF fa v).advance
  | cli (rc : Reg) (h : i = .cli rc) : ExecShape i s ((s.setX rc (zext32 1 s.iena)).setIena 0#1).advance
  | sti (h : i = .sti) (hr : s.params.stiWrite = .record) : ExecShape i s (s.setIena 1#1).advance
  | susp (rc : Reg) (h : i = .susp rc) : ExecShape i s (s.setUsp (s.readX rc)).advance
  | stiv (rc : Reg) (h : i = .stiv rc) : ExecShape i s (s.setIvec (s.readX rc)).advance
  | stpd (rc : Reg) (h : i = .stpd rc) : ExecShape i s (s.setPdir (s.readX rc)).advance
  | stpg (rc : Reg) (h : i = .stpg rc) (hr : s.params.pgToWrite = .record) :
      ExecShape i s (s.setPg (s.readX rc)).advance
  | stto (rc : Reg) (h : i = .stto rc) (hr : s.params.pgToWrite = .record) :
      ExecShape i s (s.setTout (s.readX rc)).advance
  | bin (rc : Reg) (b : Byte) (c : ConsoleIn) (h : i = .bin rc) (hc : s.consoleIn.take = some (b, c)) :
      ExecShape i s ((s.setConsoleIn c).setX rc (zext32 8 b)).advance
  | bout (rc : Reg) (h : i = .bout rc) :
      ExecShape i s (s.setConsoleOut (s.consoleOut ++ [(s.readX rc).extractLsb' 0 8])).advance
  | halt (h : i = .halt) : ExecShape i s s.setHalted
  | block (ra rb rc : Reg) (bs : List Byte) (h : storesMemory i = true) (hx : xTargets i = [ra, rb, rc])
      (ok : s.Storable (s.readX ra) bs.length) :
      ExecShape i s ((s.setMem (Memory.writeBytes s.mem (s.readX ra) bs)).drawNamed ra rb rc).advance

theorem ExecShape.ofWriteX {i : Instr} {s t : State} {ra : Reg} {v : Word} (h : s.writeX ra v = .next t)
    (hm : ra ∈ xTargets i) : ExecShape i s t := by
  cases State.writeX_next h
  exact .writeX ra v hm

theorem ExecShape.ofWriteF {i : Instr} {s t : State} {fa : Reg} {v : Long} (h : s.writeF fa v = .next t)
    (hm : fa ∈ fTargets i) : ExecShape i s t := by
  cases State.writeF_next h
  exact .writeF fa v hm

theorem ExecShape.ofArith {i : Instr} {s t : State} {u : UndefinedResult} {ra : Reg} {r : Except ArithKind Word}
    (h : s.writeArith u ra r = .next t) (hm : ra ∈ xTargets i) : ExecShape i s t := by
  rcases State.writeArith_next h with ⟨v, _, rfl⟩ | ⟨k, _, _, rfl⟩
  · exact .writeX ra v hm
  · exact .drawX ra hm

theorem ExecShape.ofFp {i : Instr} {s t : State} {fa : Reg} {r : Option Long} (h : s.writeFp fa r = .next t)
    (hm : fa ∈ fTargets i) : ExecShape i s t := by
  rcases State.writeFp_next h with ⟨v, _, rfl⟩ | ⟨_, rfl⟩
  · exact .writeF fa v hm
  · exact .writeNan fa hm

theorem ExecShape.ofConverted {i : Instr} {s t : State} {ra : Reg} {r : Option Word}
    (h : s.writeConverted ra r = .next t) (hm : ra ∈ xTargets i) : ExecShape i s t := by
  obtain ⟨v, _, rfl⟩ := State.writeConverted_next h
  exact .writeX ra v hm

theorem ExecShape.ofBranch {i : Instr} {s t : State} {c : Bool} {imm : Half} (h : s.branch c imm = .next t) :
    ExecShape i s t := by
  rcases State.branch_next h with ⟨_, rfl⟩ | ⟨_, rfl⟩
  · exact .branch imm
  · exact .goOn

theorem ExecShape.ofStore {i : Instr} {s t : State} {a : Word} {n v : Nat}
    (h : s.storeThen a n v State.toNext = .next t) (hm : storesMemory i = true) : ExecShape i s t := by
  obtain ⟨_, ok, h⟩ := State.storeThen_next h
  cases h
  exact .store a _ hm (by simpa using ok)

theorem ExecShape.ofPush {i : Instr} {s t : State} {m : String} {n v : Nat}
    (h : s.stackSlot m s.pushAddr (s.storeThen s.pushAddr n v fun u => u.writeX spIndex s.pushAddr) = .next t)
    (hm : storesMemory i = true) (hx : spIndex ∈ xTargets i) : ExecShape i s t := by
  obtain ⟨_, _, h⟩ := State.stackSlot_next h
  obtain ⟨_, ok, h⟩ := State.storeThen_next h
  cases State.writeX_next h
  exact .push _ hm hx (by simpa using ok)

/-- Everything an instruction can do. -/
theorem exec_next {i : Instr} {s t : State} (h : exec i s = .next t) : ExecShape i s t := by
  cases i
  case nop => cases h; exact .plain rfl
  case add | addi | addiu | sub | subi | subiu | mul | muli | muliu | and | or | xor | not | eq | ne | lt |
      ltu | gt | gtu | le | leu | ge | geu | li | liu | lih | lusp | lvad | lmsz =>
    exact .ofWriteX h (.head _)
  case div | divi | diviu | mod | modi | modiu | shl | shli | slr | slri | sar | sari =>
    exact .ofArith h (.head _)
  case addf | subf | mulf | divf | flor | ceil | sqrt | fmod =>
    exact .ofFp h (.head _)
  case eqf | nef | ltf | gtf | lef | gef | pow | fabs | log | logt | exp | sin | cos | tan | asin | acos |
      atan | cif | cuf =>
    exact .ofWriteF h (.head _)
  case cfi | cfu =>
    exact .ofConverted h (.head _)
  case call | ret | poph | popb | popa | pshh | pshb | psha | idle | iret | trap | mcmp | mchr =>
    cases h
  case b => cases h; exact .branch _
  case be => exact .ofBranch h
  case bne => exact .ofBranch h
  case bnez => exact .ofBranch h
  case blt => exact .ofBranch h
  case bgt => exact .ofBranch h
  case j => cases h; exact .jump _
  case jr => cases h; exact .jumpReg _ rfl
  case lw => exact .ofWriteX (State.loadThen_next h).2.2 (.head _)
  case lh => exact .ofWriteX (State.loadThen_next h).2.2 (.head _)
  case lb => exact .ofWriteX (State.loadThen_next h).2.2 (.head _)
  case lf => exact .ofWriteF (State.loadThen_next h).2.2 (.head _)
  case sw => exact .ofStore h rfl
  case sh => exact .ofStore h rfl
  case sb => exact .ofStore h rfl
  case sf => exact .ofStore h rfl
  case popw =>
    obtain ⟨_, _, h⟩ := State.stackSlot_next h
    cases State.writeX_next (State.loadThen_next h).2.2
    exact .popX _ _ (.head _) (.tail _ (.head _))
  case popf =>
    obtain ⟨_, _, h⟩ := State.stackSlot_next h
    cases State.writeF_next (State.loadThen_next h).2.2
    exact .popF _ _ (.head _) (.head _)
  case pshw => exact .ofPush h rfl (.head _)
  case pshf => exact .ofPush h rfl (.head _)
  case cli => cases h; exact .cli _ rfl
  case sti => obtain ⟨hr, rfl⟩ := controlWrite_next h; exact .sti rfl hr
  case susp => cases h; exact .susp _ rfl
  case stiv => cases h; exact .stiv _ rfl
  case stpd => cases h; exact .stpd _ rfl
  case stpg => obtain ⟨hr, rfl⟩ := controlWrite_next h; exact .stpg _ rfl hr
  case stto => obtain ⟨hr, rfl⟩ := controlWrite_next h; exact .stto _ rfl hr
  case bin =>
    rcases execBin_next h with ⟨_, rfl⟩ | ⟨b, c, hc, rfl⟩
    · exact .writeX _ _ (.head _)
    · exact .bin _ b c rfl hc
  case bout => cases h; exact .bout _ rfl
  case halt => cases h; exact .halt rfl
  case mcpy =>
    obtain ⟨_, _, ok, rfl⟩ := execMcpy_next h
    exact .block _ _ _ _ rfl rfl (by simpa using ok)
  case mset =>
    obtain ⟨ok, rfl⟩ := execMset_next h
    exact .block _ _ _ _ rfl rfl (by simpa using ok)

end Sys2Proof.Machine
end

