-- ==== Sys2Proof/Laws/PerInstr.lean ====
section
/-! SUPPORT. A family of statements made per instruction: the encoder's word has the fixed bits of the instruction's
row of the opcode table. The encoder is written from the formats of 30_encoding.md, the rows from opcode_table.json. -/

namespace Sys2Proof.Laws

open Sys2Proof.Machine

/-- The word of a well-formed instruction matches its row. -/
def EncodeMatches.Statement (i : Instr) : Prop :=
  WellFormed i = true → (opcodeRow i).covers (encode i) = true

/-- Masking off the low `k` bits keeps the part above them. -/
theorem ofNat_and_high (k h r : Nat) (hr : r < 2 ^ k) :
    BitVec.ofNat 32 (h * 2 ^ k + r) &&& (BitVec.allOnes 32 <<< k) = BitVec.ofNat 32 (h * 2 ^ k) := by
  apply BitVec.eq_of_getLsbD_eq
  intro j hj
  simp only [BitVec.getLsbD_and, BitVec.getLsbD_ofNat, BitVec.getLsbD_shiftLeft, BitVec.getLsbD_allOnes]
  rw [Nat.mul_comm h, Nat.testBit_two_pow_mul_add h hr]
  by_cases hk : j < k
  · simp [hk, Nat.testBit_two_pow_mul, Nat.not_le.mpr hk]
  · have : j - k < 32 := by omega
    simp [hk, hj, this, Nat.testBit_two_pow_mul, Nat.not_lt.mp hk]

/-- A row whose mask keeps the bits from `k` on covers a word with its pattern above bit `k`. -/
theorem covers_of_high (row : OpcodeRow) (k h r : Nat) (hr : r < 2 ^ k)
    (hm : row.mask = BitVec.allOnes 32 <<< k) (hp : row.pattern = BitVec.ofNat 32 (h * 2 ^ k)) :
    row.covers (BitVec.ofNat 32 (h * 2 ^ k + r)) = true := by
  rw [OpcodeRow.covers, hm, hp, ofNat_and_high k h r hr, beq_self_eq_true]

theorem covers_encodeR (row : OpcodeRow) (op : Nat) (ra rb rc : Reg) (hm : row.mask = BitVec.allOnes 32 <<< 24)
    (hp : row.pattern = BitVec.ofNat 32 (op * 2 ^ 24)) : row.covers (encodeR op ra rb rc) = true := by
  rw [encodeR, Nat.add_assoc, Nat.add_assoc]
  exact covers_of_high row 24 op _ (by omega) hm hp

theorem covers_encodeI (row : OpcodeRow) (op : Nat) (ra rb : Reg) (imm : Half)
    (hm : row.mask = BitVec.allOnes 32 <<< 24) (hp : row.pattern = BitVec.ofNat 32 (op * 2 ^ 24)) :
    row.covers (encodeI op ra rb imm) = true := by
  have := imm.isLt
  rw [encodeI, Nat.add_assoc, Nat.add_assoc]
  exact covers_of_high row 24 op _ (by omega) hm hp

theorem covers_encodeJ (row : OpcodeRow) (op : Nat) (imm : BitVec 24)
    (hm : row.mask = BitVec.allOnes 32 <<< 24) (hp : row.pattern = BitVec.ofNat 32 (op * 2 ^ 24)) :
    row.covers (encodeJ op imm) = true :=
  covers_of_high row 24 op _ imm.isLt hm hp

theorem covers_encodeF (row : OpcodeRow) (op : Nat) (a b c : Reg) (ha : a.reach3 = true) (hb : b.reach3 = true)
    (hc : c.reach3 = true) (hm : row.mask = BitVec.allOnes 32 <<< 25)
    (hp : row.pattern = BitVec.ofNat 32 (op * 2 ^ 25)) : row.covers (encodeF op a b c) = true := by
  simp only [Reg.reach3, decide_eq_true_eq] at ha hb hc
  rw [encodeF, Nat.add_assoc, Nat.add_assoc]
  exact covers_of_high row 25 op _ (by omega) hm hp

theorem covers_encodeS (row : OpcodeRow) (group sub : Nat) (rc : Reg) (hc : rc.reach3 = true)
    (hm : row.mask = BitVec.allOnes 32 <<< 19)
    (hp : row.pattern = BitVec.ofNat 32 ((0x7F * 2 ^ 6 + group * 2 ^ 3 + sub) * 2 ^ 19)) :
    row.covers (encodeS group sub rc) = true := by
  simp only [Reg.reach3, decide_eq_true_eq] at hc
  have e : encodeS group sub rc =
      BitVec.ofNat 32 ((0x7F * 2 ^ 6 + group * 2 ^ 3 + sub) * 2 ^ 19 + rc.val * 2 ^ 16) := by
    exact congrArg (BitVec.ofNat 32) (by omega)
  rw [e]
  exact covers_of_high row 19 _ _ (by omega) hm hp

theorem covers_encodeM (row : OpcodeRow) (op : Nat) (ra rb rc : Reg) (ha : ra.reach3 = true)
    (hb : rb.reach3 = true) (hc : rc.reach3 = true) (hm : row.mask = BitVec.allOnes 32 <<< 19)
    (hp : row.pattern = BitVec.ofNat 32 ((0x3FD * 2 ^ 3 + op) * 2 ^ 19)) :
    row.covers (encodeM op ra rb rc) = true := by
  simp only [Reg.reach3, decide_eq_true_eq] at ha hb hc
  have e : encodeM op ra rb rc = BitVec.ofNat 32 ((0x3FD * 2 ^ 3 + op) * 2 ^ 19 +
      (ra.val * 2 ^ 16 + rb.val * 2 ^ 13 + rc.val * 2 ^ 10)) := by
    exact congrArg (BitVec.ofNat 32) (by omega)
  rw [e]
  exact covers_of_high row 19 _ _ (by omega) hm hp

/-- The alias row of BNEZ fixes rb too (R204). -/
theorem covers_bnez (ra : Reg) (imm : Half) : (opcodeRow (.bnez ra imm)).covers (encode (.bnez ra imm)) = true := by
  have e : encode (.bnez ra imm) = BitVec.ofNat 32 ((0x2600 + ra.val * 2 ^ 4) * 2 ^ 16 + imm.toNat) := by
    have : (0 : Reg).val = 0 := rfl
    exact congrArg (BitVec.ofNat 32) (by omega)
  have h : (BitVec.ofNat 32 ((0x2600 + ra.val * 2 ^ 4) * 2 ^ 16 + imm.toNat)) &&& 0xFF0F0000#32 =
      BitVec.ofNat 32 ((0x2600 + ra.val * 2 ^ 4) * 2 ^ 16) &&& 0xFF0F0000#32 := by
    rw [← ofNat_and_high 16 _ imm.toNat imm.isLt, BitVec.and_assoc]
    rfl
  rw [OpcodeRow.covers, e]
  show (_ &&& 0xFF0F0000#32 == 0x26000000#32) = true
  rw [h]
  clear e h imm
  revert ra
  decide

theorem EncodeMatches.nop : EncodeMatches.Statement .nop := fun _ => by decide
theorem EncodeMatches.add (ra rb rc : Reg) : EncodeMatches.Statement (.add ra rb rc) :=
  fun _ => covers_encodeR _ _ _ _ _ rfl rfl
theorem EncodeMatches.addi (ra rb : Reg) (imm : Half) : EncodeMatches.Statement (.addi ra rb imm) :=
  fun _ => covers_encodeI _ _ _ _ _ rfl rfl
theorem EncodeMatches.addiu (ra rb : Reg) (imm : Half) : EncodeMatches.Statement (.addiu ra rb imm) :=
  fun _ => covers_encodeI _ _ _ _ _ rfl rfl
theorem EncodeMatches.sub (ra rb rc : Reg) : EncodeMatches.Statement (.sub ra rb rc) :=
  fun _ => covers_encodeR _ _ _ _ _ rfl rfl
theorem EncodeMatches.subi (ra rb : Reg) (imm : Half) : EncodeMatches.Statement (.subi ra rb imm) :=
  fun _ => covers_encodeI _ _ _ _ _ rfl rfl
theorem EncodeMatches.subiu (ra rb : Reg) (imm : Half) : EncodeMatches.Statement (.subiu ra rb imm) :=
  fun _ => covers_encodeI _ _ _ _ _ rfl rfl
theorem EncodeMatches.mul (ra rb rc : Reg) : EncodeMatches.Statement (.mul ra rb rc) :=
  fun _ => covers_encodeR _ _ _ _ _ rfl rfl
theorem EncodeMatches.muli (ra rb : Reg) (imm : Half) : EncodeMatches.Statement (.muli ra rb imm) :=
  fun _ => covers_encodeI _ _ _ _ _ rfl rfl
theorem EncodeMatches.muliu (ra rb : Reg) (imm : Half) : EncodeMatches.Statement (.muliu ra rb imm) :=
  fun _ => covers_encodeI _ _ _ _ _ rfl rfl
theorem EncodeMatches.div (ra rb rc : Reg) : EncodeMatches.Statement (.div ra rb rc) :=
  fun _ => covers_encodeR _ _ _ _ _ rfl rfl
theorem EncodeMatches.divi (ra rb : Reg) (imm : Half) : EncodeMatches.Statement (.divi ra rb imm) :=
  fun _ => covers_encodeI _ _ _ _ _ rfl rfl
theorem EncodeMatches.diviu (ra rb : Reg) (imm : Half) : EncodeMatches.Statement (.diviu ra rb imm) :=
  fun _ => covers_encodeI _ _ _ _ _ rfl rfl
theorem EncodeMatches.mod (ra rb rc : Reg) : EncodeMatches.Statement (.mod ra rb rc) :=
  fun _ => covers_encodeR _ _ _ _ _ rfl rfl
theorem EncodeMatches.modi (ra rb : Reg) (imm : Half) : EncodeMatches.Statement (.modi ra rb imm) :=
  fun _ => covers_encodeI _ _ _ _ _ rfl rfl
theorem EncodeMatches.modiu (ra rb : Reg) (imm : Half) : EncodeMatches.Statement (.modiu ra rb imm) :=
  fun _ => covers_encodeI _ _ _ _ _ rfl rfl
theorem EncodeMatches.shl (ra rb rc : Reg) : EncodeMatches.Statement (.shl ra rb rc) :=
  fun _ => covers_encodeR _ _ _ _ _ rfl rfl
theorem EncodeMatches.shli (ra rb : Reg) (imm : Half) : EncodeMatches.Statement (.shli ra rb imm) :=
  fun _ => covers_encodeI _ _ _ _ _ rfl rfl
theorem EncodeMatches.slr (ra rb rc : Reg) : EncodeMatches.Statement (.slr ra rb rc) :=
  fun _ => covers_encodeR _ _ _ _ _ rfl rfl
theorem EncodeMatches.slri (ra rb : Reg) (imm : Half) : EncodeMatches.Statement (.slri ra rb imm) :=
  fun _ => covers_encodeI _ _ _ _ _ rfl rfl
theorem EncodeMatches.sar (ra rb rc : Reg) : EncodeMatches.Statement (.sar ra rb rc) :=
  fun _ => covers_encodeR _ _ _ _ _ rfl rfl
theorem EncodeMatches.sari (ra rb : Reg) (imm : Half) : EncodeMatches.Statement (.sari ra rb imm) :=
  fun _ => covers_encodeI _ _ _ _ _ rfl rfl
theorem EncodeMatches.and (ra rb rc : Reg) : EncodeMatches.Statement (.and ra rb rc) :=
  fun _ => covers_encodeR _ _ _ _ _ rfl rfl
theorem EncodeMatches.or (ra rb rc : Reg) : EncodeMatches.Statement (.or ra rb rc) :=
  fun _ => covers_encodeR _ _ _ _ _ rfl rfl
theorem EncodeMatches.xor (ra rb rc : Reg) : EncodeMatches.Statement (.xor ra rb rc) :=
  fun _ => covers_encodeR _ _ _ _ _ rfl rfl
theorem EncodeMatches.not (ra rb : Reg) : EncodeMatches.Statement (.not ra rb) :=
  fun _ => covers_encodeR _ _ _ _ _ rfl rfl
theorem EncodeMatches.eq (ra rb rc : Reg) : EncodeMatches.Statement (.eq ra rb rc) :=
  fun _ => covers_encodeR _ _ _ _ _ rfl rfl
theorem EncodeMatches.ne (ra rb rc : Reg) : EncodeMatches.Statement (.ne ra rb rc) :=
  fun _ => covers_encodeR _ _ _ _ _ rfl rfl
theorem EncodeMatches.lt (ra rb rc : Reg) : EncodeMatches.Statement (.lt ra rb rc) :=
  fun _ => covers_encodeR _ _ _ _ _ rfl rfl
theorem EncodeMatches.ltu (ra rb rc : Reg) : EncodeMatches.Statement (.ltu ra rb rc) :=
  fun _ => covers_encodeR _ _ _ _ _ rfl rfl
theorem EncodeMatches.gt (ra rb rc : Reg) : EncodeMatches.Statement (.gt ra rb rc) :=
  fun _ => covers_encodeR _ _ _ _ _ rfl rfl
theorem EncodeMatches.gtu (ra rb rc : Reg) : EncodeMatches.Statement (.gtu ra rb rc) :=
  fun _ => covers_encodeR _ _ _ _ _ rfl rfl
theorem EncodeMatches.le (ra rb rc : Reg) : EncodeMatches.Statement (.le ra rb rc) :=
  fun _ => covers_encodeR _ _ _ _ _ rfl rfl
theorem EncodeMatches.leu (ra rb rc : Reg) : EncodeMatches.Statement (.leu ra rb rc) :=
  fun _ => covers_encodeR _ _ _ _ _ rfl rfl
theorem EncodeMatches.ge (ra rb rc : Reg) : EncodeMatches.Statement (.ge ra rb rc) :=
  fun _ => covers_encodeR _ _ _ _ _ rfl rfl
theorem EncodeMatches.geu (ra rb rc : Reg) : EncodeMatches.Statement (.geu ra rb rc) :=
  fun _ => covers_encodeR _ _ _ _ _ rfl rfl
theorem EncodeMatches.b (imm : Half) : EncodeMatches.Statement (.b imm) := fun _ => covers_encodeI _ _ _ _ _ rfl rfl
theorem EncodeMatches.be (ra rb : Reg) (imm : Half) : EncodeMatches.Statement (.be ra rb imm) :=
  fun _ => covers_encodeI _ _ _ _ _ rfl rfl
theorem EncodeMatches.bne (ra rb : Reg) (imm : Half) : EncodeMatches.Statement (.bne ra rb imm) :=
  fun _ => covers_encodeI _ _ _ _ _ rfl rfl
theorem EncodeMatches.bnez (ra : Reg) (imm : Half) : EncodeMatches.Statement (.bnez ra imm) :=
  fun _ => covers_bnez ra imm
theorem EncodeMatches.blt (ra rb : Reg) (imm : Half) : EncodeMatches.Statement (.blt ra rb imm) :=
  fun _ => covers_encodeI _ _ _ _ _ rfl rfl
theorem EncodeMatches.bgt (ra rb : Reg) (imm : Half) : EncodeMatches.Statement (.bgt ra rb imm) :=
  fun _ => covers_encodeI _ _ _ _ _ rfl rfl
theorem EncodeMatches.j (imm24 : BitVec 24) : EncodeMatches.Statement (.j imm24) :=
  fun _ => covers_encodeJ _ _ _ rfl rfl
theorem EncodeMatches.jr (ra : Reg) : EncodeMatches.Statement (.jr ra) := fun _ => covers_encodeR _ _ _ _ _ rfl rfl
theorem EncodeMatches.call (ra : Reg) : EncodeMatches.Statement (.call ra) :=
  fun _ => covers_encodeR _ _ _ _ _ rfl rfl
theorem EncodeMatches.ret : EncodeMatches.Statement .ret := fun _ => covers_encodeR _ _ _ _ _ rfl rfl
theorem EncodeMatches.lw (ra rb : Reg) (imm : Half) : EncodeMatches.Statement (.lw ra rb imm) :=
  fun _ => covers_encodeI _ _ _ _ _ rfl rfl
theorem EncodeMatches.lh (ra rb : Reg) (imm : Half) : EncodeMatches.Statement (.lh ra rb imm) :=
  fun _ => covers_encodeI _ _ _ _ _ rfl rfl
theorem EncodeMatches.lb (ra rb : Reg) (imm : Half) : EncodeMatches.Statement (.lb ra rb imm) :=
  fun _ => covers_encodeI _ _ _ _ _ rfl rfl
theorem EncodeMatches.lf (fa ra : Reg) (imm : Half) : EncodeMatches.Statement (.lf fa ra imm) :=
  fun _ => covers_encodeI _ _ _ _ _ rfl rfl
theorem EncodeMatches.li (ra : Reg) (imm : Half) : EncodeMatches.Statement (.li ra imm) :=
  fun _ => covers_encodeI _ _ _ _ _ rfl rfl
theorem EncodeMatches.liu (ra : Reg) (imm : Half) : EncodeMatches.Statement (.liu ra imm) :=
  fun _ => covers_encodeI _ _ _ _ _ rfl rfl
theorem EncodeMatches.lih (ra : Reg) (imm : Half) : EncodeMatches.Statement (.lih ra imm) :=
  fun _ => covers_encodeI _ _ _ _ _ rfl rfl
theorem EncodeMatches.sw (ra rb : Reg) (imm : Half) : EncodeMatches.Statement (.sw ra rb imm) :=
  fun _ => covers_encodeI _ _ _ _ _ rfl rfl
theorem EncodeMatches.sh (ra rb : Reg) (imm : Half) : EncodeMatches.Statement (.sh ra rb imm) :=
  fun _ => covers_encodeI _ _ _ _ _ rfl rfl
theorem EncodeMatches.sb (ra rb : Reg) (imm : Half) : EncodeMatches.Statement (.sb ra rb imm) :=
  fun _ => covers_encodeI _ _ _ _ _ rfl rfl
theorem EncodeMatches.sf (ra fa : Reg) (imm : Half) : EncodeMatches.Statement (.sf ra fa imm) :=
  fun _ => covers_encodeI _ _ _ _ _ rfl rfl
theorem EncodeMatches.popw (ra : Reg) : EncodeMatches.Statement (.popw ra) :=
  fun _ => covers_encodeR _ _ _ _ _ rfl rfl
theorem EncodeMatches.poph (ra : Reg) : EncodeMatches.Statement (.poph ra) :=
  fun _ => covers_encodeR _ _ _ _ _ rfl rfl
theorem EncodeMatches.popb (ra : Reg) : EncodeMatches.Statement (.popb ra) :=
  fun _ => covers_encodeR _ _ _ _ _ rfl rfl
theorem EncodeMatches.popf (fa : Reg) : EncodeMatches.Statement (.popf fa) :=
  fun _ => covers_encodeR _ _ _ _ _ rfl rfl
theorem EncodeMatches.popa (ra : Reg) : EncodeMatches.Statement (.popa ra) :=
  fun _ => covers_encodeR _ _ _ _ _ rfl rfl
theorem EncodeMatches.pshw (ra : Reg) : EncodeMatches.Statement (.pshw ra) :=
  fun _ => covers_encodeR _ _ _ _ _ rfl rfl
theorem EncodeMatches.pshh (ra : Reg) : EncodeMatches.Statement (.pshh ra) :=
  fun _ => covers_encodeR _ _ _ _ _ rfl rfl
theorem EncodeMatches.pshb (ra : Reg) : EncodeMatches.Statement (.pshb ra) :=
  fun _ => covers_encodeR _ _ _ _ _ rfl rfl
theorem EncodeMatches.pshf (fa : Reg) : EncodeMatches.Statement (.pshf fa) :=
  fun _ => covers_encodeR _ _ _ _ _ rfl rfl
theorem EncodeMatches.psha (ra : Reg) : EncodeMatches.Statement (.psha ra) :=
  fun _ => covers_encodeR _ _ _ _ _ rfl rfl
theorem EncodeMatches.addf (fa fb fc : Reg) : EncodeMatches.Statement (.addf fa fb fc) := fun h => by
  simp only [WellFormed, Bool.and_eq_true] at h
  exact covers_encodeF _ _ _ _ _ h.1.1 h.1.2 h.2 rfl rfl
theorem EncodeMatches.subf (fa fb fc : Reg) : EncodeMatches.Statement (.subf fa fb fc) := fun h => by
  simp only [WellFormed, Bool.and_eq_true] at h
  exact covers_encodeF _ _ _ _ _ h.1.1 h.1.2 h.2 rfl rfl
theorem EncodeMatches.mulf (fa fb fc : Reg) : EncodeMatches.Statement (.mulf fa fb fc) := fun h => by
  simp only [WellFormed, Bool.and_eq_true] at h
  exact covers_encodeF _ _ _ _ _ h.1.1 h.1.2 h.2 rfl rfl
theorem EncodeMatches.divf (fa fb fc : Reg) : EncodeMatches.Statement (.divf fa fb fc) := fun h => by
  simp only [WellFormed, Bool.and_eq_true] at h
  exact covers_encodeF _ _ _ _ _ h.1.1 h.1.2 h.2 rfl rfl
theorem EncodeMatches.eqf (fa fb fc : Reg) : EncodeMatches.Statement (.eqf fa fb fc) := fun h => by
  simp only [WellFormed, Bool.and_eq_true] at h
  exact covers_encodeF _ _ _ _ _ h.1.1 h.1.2 h.2 rfl rfl
theorem EncodeMatches.nef (fa fb fc : Reg) : EncodeMatches.Statement (.nef fa fb fc) := fun h => by
  simp only [WellFormed, Bool.and_eq_true] at h
  exact covers_encodeF _ _ _ _ _ h.1.1 h.1.2 h.2 rfl rfl
theorem EncodeMatches.ltf (fa fb fc : Reg) : EncodeMatches.Statement (.ltf fa fb fc) := fun h => by
  simp only [WellFormed, Bool.and_eq_true] at h
  exact covers_encodeF _ _ _ _ _ h.1.1 h.1.2 h.2 rfl rfl
theorem EncodeMatches.gtf (fa fb fc : Reg) : EncodeMatches.Statement (.gtf fa fb fc) := fun h => by
  simp only [WellFormed, Bool.and_eq_true] at h
  exact covers_encodeF _ _ _ _ _ h.1.1 h.1.2 h.2 rfl rfl
theorem EncodeMatches.lef (fa fb fc : Reg) : EncodeMatches.Statement (.lef fa fb fc) := fun h => by
  simp only [WellFormed, Bool.and_eq_true] at h
  exact covers_encodeF _ _ _ _ _ h.1.1 h.1.2 h.2 rfl rfl
theorem EncodeMatches.gef (fa fb fc : Reg) : EncodeMatches.Statement (.gef fa fb fc) := fun h => by
  simp only [WellFormed, Bool.and_eq_true] at h
  exact covers_encodeF _ _ _ _ _ h.1.1 h.1.2 h.2 rfl rfl
theorem EncodeMatches.pow (fa fb fc : Reg) : EncodeMatches.Statement (.pow fa fb fc) := fun h => by
  simp only [WellFormed, Bool.and_eq_true] at h
  exact covers_encodeF _ _ _ _ _ h.1.1 h.1.2 h.2 rfl rfl
theorem EncodeMatches.fabs (fa fb : Reg) : EncodeMatches.Statement (.fabs fa fb) := fun h => by
  simp only [WellFormed, Bool.and_eq_true] at h
  exact covers_encodeF _ _ _ _ _ h.1 h.2 rfl rfl rfl
theorem EncodeMatches.log (fa fb : Reg) : EncodeMatches.Statement (.log fa fb) := fun h => by
  simp only [WellFormed, Bool.and_eq_true] at h
  exact covers_encodeF _ _ _ _ _ h.1 h.2 rfl rfl rfl
theorem EncodeMatches.logt (fa fb : Reg) : EncodeMatches.Statement (.logt fa fb) := fun h => by
  simp only [WellFormed, Bool.and_eq_true] at h
  exact covers_encodeF _ _ _ _ _ h.1 h.2 rfl rfl rfl
theorem EncodeMatches.exp (fa fb : Reg) : EncodeMatches.Statement (.exp fa fb) := fun h => by
  simp only [WellFormed, Bool.and_eq_true] at h
  exact covers_encodeF _ _ _ _ _ h.1 h.2 rfl rfl rfl
theorem EncodeMatches.flor (fa fb : Reg) : EncodeMatches.Statement (.flor fa fb) := fun h => by
  simp only [WellFormed, Bool.and_eq_true] at h
  exact covers_encodeF _ _ _ _ _ h.1 h.2 rfl rfl rfl
theorem EncodeMatches.ceil (fa fb : Reg) : EncodeMatches.Statement (.ceil fa fb) := fun h => by
  simp only [WellFormed, Bool.and_eq_true] at h
  exact covers_encodeF _ _ _ _ _ h.1 h.2 rfl rfl rfl
theorem EncodeMatches.sin (fa fb : Reg) : EncodeMatches.Statement (.sin fa fb) := fun h => by
  simp only [WellFormed, Bool.and_eq_true] at h
  exact covers_encodeF _ _ _ _ _ h.1 h.2 rfl rfl rfl
theorem EncodeMatches.cos (fa fb : Reg) : EncodeMatches.Statement (.cos fa fb) := fun h => by
  simp only [WellFormed, Bool.and_eq_true] at h
  exact covers_encodeF _ _ _ _ _ h.1 h.2 rfl rfl rfl
theorem EncodeMatches.tan (fa fb : Reg) : EncodeMatches.Statement (.tan fa fb) := fun h => by
  simp only [WellFormed, Bool.and_eq_true] at h
  exact covers_encodeF _ _ _ _ _ h.1 h.2 rfl rfl rfl
theorem EncodeMatches.asin (fa fb : Reg) : EncodeMatches.Statement (.asin fa fb) := fun h => by
  simp only [WellFormed, Bool.and_eq_true] at h
  exact covers_encodeF _ _ _ _ _ h.1 h.2 rfl rfl rfl
theorem EncodeMatches.acos (fa fb : Reg) : EncodeMatches.Statement (.acos fa fb) := fun h => by
  simp only [WellFormed, Bool.and_eq_true] at h
  exact covers_encodeF _ _ _ _ _ h.1 h.2 rfl rfl rfl
theorem EncodeMatches.atan (fa fb : Reg) : EncodeMatches.Statement (.atan fa fb) := fun h => by
  simp only [WellFormed, Bool.and_eq_true] at h
  exact covers_encodeF _ _ _ _ _ h.1 h.2 rfl rfl rfl
theorem EncodeMatches.sqrt (fa fb : Reg) : EncodeMatches.Statement (.sqrt fa fb) := fun h => by
  simp only [WellFormed, Bool.and_eq_true] at h
  exact covers_encodeF _ _ _ _ _ h.1 h.2 rfl rfl rfl
theorem EncodeMatches.fmod (fa fb fc : Reg) : EncodeMatches.Statement (.fmod fa fb fc) := fun h => by
  simp only [WellFormed, Bool.and_eq_true] at h
  exact covers_encodeF _ _ _ _ _ h.1.1 h.1.2 h.2 rfl rfl
theorem EncodeMatches.cif (fa ra : Reg) : EncodeMatches.Statement (.cif fa ra) := fun h => by
  simp only [WellFormed, Bool.and_eq_true] at h
  exact covers_encodeF _ _ _ _ _ h.1 h.2 rfl rfl rfl
theorem EncodeMatches.cuf (fa ra : Reg) : EncodeMatches.Statement (.cuf fa ra) := fun h => by
  simp only [WellFormed, Bool.and_eq_true] at h
  exact covers_encodeF _ _ _ _ _ h.1 h.2 rfl rfl rfl
theorem EncodeMatches.cfi (ra fa : Reg) : EncodeMatches.Statement (.cfi ra fa) := fun h => by
  simp only [WellFormed, Bool.and_eq_true] at h
  exact covers_encodeF _ _ _ _ _ h.1 h.2 rfl rfl rfl
theorem EncodeMatches.cfu (ra fa : Reg) : EncodeMatches.Statement (.cfu ra fa) := fun h => by
  simp only [WellFormed, Bool.and_eq_true] at h
  exact covers_encodeF _ _ _ _ _ h.1 h.2 rfl rfl rfl
theorem EncodeMatches.idle : EncodeMatches.Statement .idle := fun _ => by decide
theorem EncodeMatches.cli (rc : Reg) : EncodeMatches.Statement (.cli rc) := fun h => covers_encodeS _ _ _ _ h rfl rfl
theorem EncodeMatches.sti : EncodeMatches.Statement .sti := fun _ => by decide
theorem EncodeMatches.lusp (rc : Reg) : EncodeMatches.Statement (.lusp rc) :=
  fun h => covers_encodeS _ _ _ _ h rfl rfl
theorem EncodeMatches.susp (rc : Reg) : EncodeMatches.Statement (.susp rc) :=
  fun h => covers_encodeS _ _ _ _ h rfl rfl
theorem EncodeMatches.iret : EncodeMatches.Statement .iret := fun _ => by decide
theorem EncodeMatches.bin (rc : Reg) : EncodeMatches.Statement (.bin rc) := fun h => covers_encodeS _ _ _ _ h rfl rfl
theorem EncodeMatches.bout (rc : Reg) : EncodeMatches.Statement (.bout rc) :=
  fun h => covers_encodeS _ _ _ _ h rfl rfl
theorem EncodeMatches.trap : EncodeMatches.Statement .trap := fun _ => by decide
theorem EncodeMatches.stiv (rc : Reg) : EncodeMatches.Statement (.stiv rc) :=
  fun h => covers_encodeS _ _ _ _ h rfl rfl
theorem EncodeMatches.stpd (rc : Reg) : EncodeMatches.Statement (.stpd rc) :=
  fun h => covers_encodeS _ _ _ _ h rfl rfl
theorem EncodeMatches.stpg (rc : Reg) : EncodeMatches.Statement (.stpg rc) :=
  fun h => covers_encodeS _ _ _ _ h rfl rfl
theorem EncodeMatches.stto (rc : Reg) : EncodeMatches.Statement (.stto rc) :=
  fun h => covers_encodeS _ _ _ _ h rfl rfl
theorem EncodeMatches.lvad (rc : Reg) : EncodeMatches.Statement (.lvad rc) :=
  fun h => covers_encodeS _ _ _ _ h rfl rfl
theorem EncodeMatches.halt : EncodeMatches.Statement .halt := fun _ => by decide
theorem EncodeMatches.lmsz (ra : Reg) : EncodeMatches.Statement (.lmsz ra) :=
  fun h => covers_encodeM _ _ _ _ _ h rfl rfl rfl rfl
theorem EncodeMatches.mcpy (ra rb rc : Reg) : EncodeMatches.Statement (.mcpy ra rb rc) := fun h => by
  simp only [WellFormed, Bool.and_eq_true] at h
  exact covers_encodeM _ _ _ _ _ h.1.1 h.1.2 h.2 rfl rfl
theorem EncodeMatches.mcmp (ra rb rc : Reg) : EncodeMatches.Statement (.mcmp ra rb rc) := fun h => by
  simp only [WellFormed, Bool.and_eq_true] at h
  exact covers_encodeM _ _ _ _ _ h.1.1 h.1.2 h.2 rfl rfl
theorem EncodeMatches.mchr (ra rb rc : Reg) : EncodeMatches.Statement (.mchr ra rb rc) := fun h => by
  simp only [WellFormed, Bool.and_eq_true] at h
  exact covers_encodeM _ _ _ _ _ h.1.1 h.1.2 h.2 rfl rfl
theorem EncodeMatches.mset (ra rb rc : Reg) : EncodeMatches.Statement (.mset ra rb rc) := fun h => by
  simp only [WellFormed, Bool.and_eq_true] at h
  exact covers_encodeM _ _ _ _ _ h.1.1 h.1.2 h.2 rfl rfl

end Sys2Proof.Laws
end

