-- ==== Sys2Proof/Laws/Step.lean ====
section
/-! SUPPORT. Everything a step can do when it goes on: the machine runs, the word at the pc can be fetched, and the
next state is that of the instruction the word decodes to. -/

namespace Sys2Proof.Machine

/-- A step that goes on ran the decoded instruction (R435). -/
theorem step_next {s t : State} (h : step s = .next t) :
    s.Running ∧ s.Fetchable ∧ ∃ i, decodeBytes (Memory.readBytes s.mem s.pc 4) = .ok i ∧ exec i s = .next t := by
  unfold step at h
  split at h
  · cases h
  · next hh =>
    split at h
    · cases h
    · next hp =>
      rcases s.fetch_cases with ⟨hf, e⟩ | ⟨_, _, e⟩ | ⟨_, e⟩ <;> rw [e] at h
      · simp only at h
        split at h
        · cases h
        · next i hd => exact ⟨⟨by simpa using hh, by simpa using hp⟩, hf, i, hd, h⟩
      · cases h
      · cases h

/-- A fetched word is placed in memory and nothing else changes. -/
@[simp] theorem State.withFetchWord_pc (s : State) (n w : Nat) : (s.withFetchWord n w).pc = s.pc := rfl

@[simp] theorem State.withFetchWord_readX (s : State) (n w : Nat) (r : Reg) :
    (s.withFetchWord n w).readX r = s.readX r := rfl

@[simp] theorem State.withFetchWord_readF (s : State) (n w : Nat) (r : Reg) :
    (s.withFetchWord n w).readF r = s.readF r := rfl

end Sys2Proof.Machine
end

