-- ==== Sys2Proof/Tests/Slice0.lean ====
section
/-! SUPPORT. Our own tests: ill-formed terms are refused, written-out words decode, single steps give the values of
spec/95_test_vectors.md and spec/96_test_vectors_float_system.md (the number of the vector is in the name), and every
statement of Certificates/Slice0/Obligations.lean that has hypotheses has a state and operands that meet them. -/

namespace Sys2Proof.Tests

open Sys2Proof Sys2Proof.Machine

/-! ## WellFormed: a register above 7 in each 3-bit field is refused (10_state.md R34, R36) -/

theorem test_ill_formed_1 : ∀ i ∈ (
    [.addf 8 7 7, .addf 7 8 7, .addf 7 7 8, .subf 8 7 7, .subf 7 8 7, .subf 7 7 8, .mulf 8 7 7, .mulf 7 8 7,
     .mulf 7 7 8, .divf 8 7 7, .divf 7 8 7, .divf 7 7 8, .eqf 8 7 7, .eqf 7 8 7, .eqf 7 7 8, .nef 8 7 7,
     .nef 7 8 7, .nef 7 7 8, .ltf 8 7 7, .ltf 7 8 7, .ltf 7 7 8, .gtf 8 7 7, .gtf 7 8 7, .gtf 7 7 8,
     .lef 8 7 7, .lef 7 8 7, .lef 7 7 8, .gef 8 7 7, .gef 7 8 7, .gef 7 7 8, .pow 8 7 7, .pow 7 8 7,
     .pow 7 7 8, .fabs 8 7, .fabs 7 8] : List Instr), WellFormed i = false := by decide

theorem test_ill_formed_2 : ∀ i ∈ (
    [.log 8 7, .log 7 8, .logt 8 7, .logt 7 8, .exp 8 7, .exp 7 8, .flor 8 7, .flor 7 8, .ceil 8 7, .ceil 7 8,
     .sin 8 7, .sin 7 8, .cos 8 7, .cos 7 8, .tan 8 7, .tan 7 8, .asin 8 7, .asin 7 8, .acos 8 7, .acos 7 8,
     .atan 8 7, .atan 7 8, .sqrt 8 7, .sqrt 7 8, .fmod 8 7 7, .fmod 7 8 7, .fmod 7 7 8, .cif 8 7, .cif 7 8,
     .cuf 8 7, .cuf 7 8, .cfi 8 7, .cfi 7 8, .cfu 8 7, .cfu 7 8] : List Instr), WellFormed i = false := by decide

theorem test_ill_formed_3 : ∀ i ∈ (
    [.cli 8, .lusp 8, .susp 8, .bin 8, .bout 8, .stiv 8, .stpd 8, .stpg 8, .stto 8, .lvad 8, .lmsz 8,
     .mcpy 8 7 7, .mcpy 7 8 7, .mcpy 7 7 8, .mcmp 8 7 7, .mcmp 7 8 7, .mcmp 7 7 8, .mchr 8 7 7, .mchr 7 8 7,
     .mchr 7 7 8, .mset 8 7 7, .mset 7 8 7, .mset 7 7 8] : List Instr), WellFormed i = false := by decide

theorem test_well_formed_boundary : WellFormed (.mset 7 7 7) = true ∧ WellFormed (.add 15 15 15) = true ∧
    WellFormed (.lf 15 15 0xFFFF) = true := by decide

/-! ## Decoding: one word of each row, written out from the encodings of 30_encoding.md by the spec's vectors -/

theorem test_decode_instruction_control : ∀ p ∈ (
    [(0x00000000#32, .nop)] : List (Word × Instr)),
    decode p.1 = .ok p.2 ∧ encode p.2 = p.1 := by decide

theorem test_decode_arithmetic_logic_1 : ∀ p ∈ (
    [(0x01123000#32, .add 1 2 3), (0x0212FFFF#32, .addi 1 2 0xFFFF), (0x0312FFFF#32, .addiu 1 2 0xFFFF),
     (0x04123000#32, .sub 1 2 3), (0x0512FFFF#32, .subi 1 2 0xFFFF), (0x0612FFFF#32, .subiu 1 2 0xFFFF),
     (0x07123000#32, .mul 1 2 3), (0x0812FFFF#32, .muli 1 2 0xFFFF), (0x0912FFFF#32, .muliu 1 2 0xFFFF),
     (0x0A123000#32, .div 1 2 3), (0x0B12FFFE#32, .divi 1 2 0xFFFE), (0x0C12FFFE#32, .diviu 1 2 0xFFFE),
     (0x0D123000#32, .mod 1 2 3), (0x0E12FFFD#32, .modi 1 2 0xFFFD), (0x0F12FFFF#32, .modiu 1 2 0xFFFF),
     (0x10123000#32, .shl 1 2 3), (0x11120004#32, .shli 1 2 0x0004), (0x12123000#32, .slr 1 2 3),
     (0x13120004#32, .slri 1 2 0x0004), (0x14123000#32, .sar 1 2 3)] : List (Word × Instr)),
    decode p.1 = .ok p.2 ∧ encode p.2 = p.1 := by decide

theorem test_decode_arithmetic_logic_2 : ∀ p ∈ (
    [(0x15120004#32, .sari 1 2 0x0004), (0x16123000#32, .and 1 2 3), (0x17123000#32, .or 1 2 3),
     (0x18123000#32, .xor 1 2 3), (0x19120000#32, .not 1 2), (0x1A123000#32, .eq 1 2 3),
     (0x1B123000#32, .ne 1 2 3), (0x1C123000#32, .lt 1 2 3), (0x1D123000#32, .ltu 1 2 3),
     (0x1E123000#32, .gt 1 2 3), (0x1F123000#32, .gtu 1 2 3), (0x20123000#32, .le 1 2 3),
     (0x21123000#32, .leu 1 2 3), (0x22123000#32, .ge 1 2 3), (0x23123000#32, .geu 1 2 3)] : List (Word × Instr)),
    decode p.1 = .ok p.2 ∧ encode p.2 = p.1 := by decide

theorem test_decode_branch_jump : ∀ p ∈ (
    [(0x24000003#32, .b 0x0003), (0x25120004#32, .be 1 2 0x0004), (0x26120004#32, .bne 1 2 0x0004),
     (0x2610FFFF#32, .bne 1 0 0xFFFF), (0x27120002#32, .blt 1 2 0x0002), (0x28120002#32, .bgt 1 2 0x0002),
     (0x29000400#32, .j 0x000400), (0x2A100000#32, .jr 1), (0x2B100000#32, .call 1), (0x2C000000#32, .ret)] : List (Word × Instr)),
    decode p.1 = .ok p.2 ∧ encode p.2 = p.1 := by decide

theorem test_decode_load_store : ∀ p ∈ (
    [(0x2D120000#32, .lw 1 2 0x0000), (0x2E120000#32, .lh 1 2 0x0000), (0x2F120003#32, .lb 1 2 0x0003),
     (0x30120008#32, .lf 1 2 0x0008), (0x3110FFFF#32, .li 1 0xFFFF), (0x3210FFFF#32, .liu 1 0xFFFF),
     (0x33101234#32, .lih 1 0x1234), (0x34120000#32, .sw 1 2 0x0000), (0x35120002#32, .sh 1 2 0x0002),
     (0x36120003#32, .sb 1 2 0x0003), (0x37210008#32, .sf 2 1 0x0008)] : List (Word × Instr)),
    decode p.1 = .ok p.2 ∧ encode p.2 = p.1 := by decide

theorem test_decode_stack : ∀ p ∈ (
    [(0x38100000#32, .popw 1), (0x39100000#32, .poph 1), (0x3A100000#32, .popb 1), (0x3B100000#32, .popf 1),
     (0x3C100000#32, .popa 1), (0x3D100000#32, .pshw 1), (0x3E100000#32, .pshh 1), (0x3F100000#32, .pshb 1),
     (0x40100000#32, .pshf 1), (0x41100000#32, .psha 1)] : List (Word × Instr)),
    decode p.1 = .ok p.2 ∧ encode p.2 = p.1 := by decide

theorem test_decode_floating_point_1 : ∀ p ∈ (
    [(0x66530000#32, .addf 1 2 3), (0x68530000#32, .subf 1 2 3), (0x6A530000#32, .mulf 1 2 3),
     (0x6C530000#32, .divf 1 2 3), (0x6E530000#32, .eqf 1 2 3), (0x70530000#32, .nef 1 2 3),
     (0x72530000#32, .ltf 1 2 3), (0x74530000#32, .gtf 1 2 3), (0x76530000#32, .lef 1 2 3),
     (0x78530000#32, .gef 1 2 3), (0x7A530000#32, .pow 1 2 3), (0x7C500000#32, .fabs 1 2),
     (0x7E500000#32, .log 1 2), (0x80500000#32, .logt 1 2), (0x82500000#32, .exp 1 2),
     (0x84500000#32, .flor 1 2), (0x86500000#32, .ceil 1 2), (0x88500000#32, .sin 1 2),
     (0x8A500000#32, .cos 1 2), (0x8C500000#32, .tan 1 2)] : List (Word × Instr)),
    decode p.1 = .ok p.2 ∧ encode p.2 = p.1 := by decide

theorem test_decode_floating_point_2 : ∀ p ∈ (
    [(0x8E500000#32, .asin 1 2), (0x90500000#32, .acos 1 2), (0x92500000#32, .atan 1 2),
     (0x94500000#32, .sqrt 1 2), (0x96530000#32, .fmod 1 2 3)] : List (Word × Instr)),
    decode p.1 = .ok p.2 ∧ encode p.2 = p.1 := by decide

theorem test_decode_conversion : ∀ p ∈ (
    [(0x98500000#32, .cif 1 2), (0x9A500000#32, .cuf 1 2), (0x9C880000#32, .cfi 2 1), (0x9E880000#32, .cfu 2 1)] : List (Word × Instr)),
    decode p.1 = .ok p.2 ∧ encode p.2 = p.1 := by decide

theorem test_decode_system : ∀ p ∈ (
    [(0xFE000000#32, .idle), (0xFE490000#32, .cli 1), (0xFE500000#32, .sti), (0xFE890000#32, .lusp 1),
     (0xFE920000#32, .susp 2), (0xFEC00000#32, .iret), (0xFF090000#32, .bin 1), (0xFF110000#32, .bout 1),
     (0xFF800000#32, .trap), (0xFFC10000#32, .stiv 1), (0xFFC90000#32, .stpd 1), (0xFFD10000#32, .stpg 1),
     (0xFFD90000#32, .stto 1), (0xFFE10000#32, .lvad 1), (0xFFFFFFFF#32, .halt)] : List (Word × Instr)),
    decode p.1 = .ok p.2 ∧ encode p.2 = p.1 := by decide

theorem test_decode_memory : ∀ p ∈ (
    [(0xFF490000#32, .lmsz 1), (0xFF514C00#32, .mcpy 1 2 3), (0xFF594C00#32, .mcmp 1 2 3),
     (0xFF614C00#32, .mchr 1 2 3), (0xFF690C00#32, .mset 1 0 3)] : List (Word × Instr)),
    decode p.1 = .ok p.2 ∧ encode p.2 = p.1 := by decide

theorem test_decode_rejects : ∀ p ∈ (
    [(0x00000001#32, .nopShape), (0x42000000#32, .unassignedOpcode), (0x65FFFFFF#32, .unassignedOpcode),
     (0xA0000000#32, .unassignedOpcode), (0xFDFFFFFF#32, .unassignedOpcode), (0xFE580000#32, .unassignedSystem),
     (0xFFE80000#32, .unassignedSystem), (0xFF400000#32, .unassignedMemory), (0xFFFFFFFE#32, .haltShape)] :
    List (Word × Reject)), decode p.1 = .error p.2 := by decide

/-- Bits 31..24 = 24, 23..16 ignored, 15..0 = 3 (R102, R107). -/
theorem test_decode_ignores_unused : decode 0x24AB0003#32 = .ok (.b 3) := by decide

theorem test_table_word : decodeTableWord 32 0x2D1C0008 = some (.lw 1 12 8) ∧ decodeTableWord 8 0 = some .nop := by
  decide

/-! ## Single steps, on the values of the spec's vectors (every parameter at the default of R7) -/

/-- Every parameter at its default; registers that no test has written hold a pattern. -/
def base : State :=
  { State.reset with
    params := defaultParams
    x := Vector.ofFn fun i => BitVec.ofNat 32 (0xA5A50000 + i.val)
    f := Vector.ofFn fun i => BitVec.ofNat 64 (0x3FF5A50000000000 + i.val) }

def withBytes (s : State) (a : Word) (bs : List Byte) : State := s.setMem (Memory.writeBytes s.mem a bs)

def withBias (s : State) (b : PcBias) : State := { s with params := { s.params with pcBias := b } }

def withVadr (s : State) (v : Word) : State := { s with vadr := v }

def withMemsz (s : State) (n : Nat) : State := { s with memsz := n }

/-- The step on the word `w` goes on, to a state that passes. -/
def runsTo (s : State) (w : Nat) (p : State → Bool) : Bool :=
  match step (s.withFetchWord 32 w) with
  | .next t => p t
  | _ => false

/-- The step on the word `w` stops with the fault. -/
def faultsWith (s : State) (w : Nat) (r : Fault) : Bool :=
  match step (s.withFetchWord 32 w) with
  | .fault q => decide (q = r)
  | _ => false

/-- The step on the word `w` is refused. -/
def refusesWith (s : State) (w : Nat) (r : Refusal) : Bool :=
  match step (s.withFetchWord 32 w) with
  | .refused q => decide (q = r)
  | _ => false

theorem test_nop_V1 : runsTo (base) 0x00000000 (fun t => t.pc == 0x00001004) = true := by decide
theorem test_nop_stops_V142 :
    faultsWith (base.setPc 0x00001002) 0x00000000 (.misaligned 0x00001002 4 .fetch) = true := by decide
theorem test_add_V13 :
    runsTo ((base.setX 2 0xFFFFFFFF).setX 3 0x00000001) 0x01123000 (fun t => t.readX 1 == 0x00000000 && t.pc ==
      0x00001004) = true := by decide
theorem test_addi_V18 :
    runsTo (base.setX 2 0x7FFFFFFF) 0x02127FFF (fun t => t.readX 1 == 0x80007FFE && t.pc == 0x00001004) = true
      := by decide
theorem test_addiu_V20 :
    runsTo (base.setX 2 0xFFFF8000) 0x03128000 (fun t => t.readX 1 == 0x00000000 && t.pc == 0x00001004) = true
      := by decide
theorem test_sub_V23 :
    runsTo ((base.setX 2 0x80000000).setX 3 0x00000001) 0x04123000 (fun t => t.readX 1 == 0x7FFFFFFF && t.pc ==
      0x00001004) = true := by decide
theorem test_subi_V24 :
    runsTo (base.setX 2 0x7FFFFFFF) 0x0512FFFF (fun t => t.readX 1 == 0x80000000 && t.pc == 0x00001004) = true
      := by decide
theorem test_subiu_V25 :
    runsTo (base.setX 2 0x00000000) 0x0612FFFF (fun t => t.readX 1 == 0xFFFF0001 && t.pc == 0x00001004) = true
      := by decide
theorem test_mul_V27 :
    runsTo ((base.setX 2 0xFFFFFFFE).setX 3 0x00000003) 0x07123000 (fun t => t.readX 1 == 0xFFFFFFFA && t.pc ==
      0x00001004) = true := by decide
theorem test_muli_V29 :
    runsTo (base.setX 2 0x80000000) 0x0812FFFF (fun t => t.readX 1 == 0x80000000 && t.pc == 0x00001004) = true
      := by decide
theorem test_muliu_V30 :
    runsTo (base.setX 2 0x00010001) 0x0912FFFF (fun t => t.readX 1 == 0xFFFFFFFF && t.pc == 0x00001004) = true
      := by decide
theorem test_div_V32 :
    runsTo ((base.setX 2 0xFFFFFFF9).setX 3 0x00000002) 0x0A123000 (fun t => t.readX 1 == 0xFFFFFFFD && t.pc ==
      0x00001004) = true := by decide
theorem test_div_stops_V37 :
    faultsWith ((base.setX 2 0x00000007).setX 3 0x00000000) 0x0A123000 (.arithUndefined .divByZero) = true := by
      decide
theorem test_divi_V40 :
    runsTo (base.setX 2 0x00000007) 0x0B12FFFE (fun t => t.readX 1 == 0xFFFFFFFD && t.pc == 0x00001004) = true
      := by decide
theorem test_divi_stops_V41 :
    faultsWith (base.setX 2 0x00000007) 0x0B120000 (.arithUndefined .divByZero) = true := by decide
theorem test_diviu_V44 :
    runsTo (base.setX 2 0xFFFFFFF9) 0x0C120002 (fun t => t.readX 1 == 0xFFFFFFFD && t.pc == 0x00001004) = true
      := by decide
theorem test_diviu_stops_V45 :
    faultsWith (base.setX 2 0x00000001) 0x0C120000 (.arithUndefined .divByZero) = true := by decide
theorem test_mod_V47 :
    runsTo ((base.setX 2 0xFFFFFFF9).setX 3 0x00000002) 0x0D123000 (fun t => t.readX 1 == 0xFFFFFFFF && t.pc ==
      0x00001004) = true := by decide
theorem test_mod_stops_V51 :
    faultsWith ((base.setX 2 0x00000007).setX 3 0x00000000) 0x0D123000 (.arithUndefined .divByZero) = true := by
      decide
theorem test_modi_V53 :
    runsTo (base.setX 2 0xFFFFFFF9) 0x0E12FFFD (fun t => t.readX 1 == 0xFFFFFFFF && t.pc == 0x00001004) = true
      := by decide
theorem test_modiu_V55 :
    runsTo (base.setX 2 0xFFFFFFF9) 0x0F120003 (fun t => t.readX 1 == 0xFFFFFFFF && t.pc == 0x00001004) = true
      := by decide
theorem test_shl_V57 :
    runsTo ((base.setX 2 0x80000001).setX 3 0x00000001) 0x10123000 (fun t => t.readX 1 == 0x00000002 && t.pc ==
      0x00001004) = true := by decide
theorem test_shl_stops_V60 :
    faultsWith ((base.setX 2 0x80000001).setX 3 0x00000021) 0x10123000 (.arithUndefined .shiftRange) = true :=
      by decide
theorem test_shli_V63 :
    runsTo (base.setX 2 0x12345678) 0x11120020 (fun t => t.readX 1 == 0x00000000 && t.pc == 0x00001004) = true
      := by decide
theorem test_shli_stops_V64 :
    faultsWith (base.setX 2 0x00000001) 0x11128000 (.arithUndefined .shiftRange) = true := by decide
theorem test_slr_V66 :
    runsTo ((base.setX 2 0x80000001).setX 3 0x00000001) 0x12123000 (fun t => t.readX 1 == 0x40000000 && t.pc ==
      0x00001004) = true := by decide
theorem test_slri_V69 :
    runsTo (base.setX 2 0xF2345678) 0x13120004 (fun t => t.readX 1 == 0x0F234567 && t.pc == 0x00001004) = true
      := by decide
theorem test_slri_stops_V70 :
    faultsWith (base.setX 2 0xF2345678) 0x13120021 (.arithUndefined .shiftRange) = true := by decide
theorem test_sar_V72 :
    runsTo ((base.setX 2 0x80000001).setX 3 0x00000001) 0x14123000 (fun t => t.readX 1 == 0xC0000000 && t.pc ==
      0x00001004) = true := by decide
theorem test_sari_V76 :
    runsTo (base.setX 2 0xF2345678) 0x15120004 (fun t => t.readX 1 == 0xFF234567 && t.pc == 0x00001004) = true
      := by decide
theorem test_sari_stops_V77 :
    faultsWith (base.setX 2 0xF2345678) 0x15120021 (.arithUndefined .shiftRange) = true := by decide
theorem test_and_V78 :
    runsTo ((base.setX 2 0xFF00FF00).setX 3 0x0FF00FF0) 0x16123000 (fun t => t.readX 1 == 0x0F000F00 && t.pc ==
      0x00001004) = true := by decide
theorem test_or_V79 :
    runsTo ((base.setX 2 0xFF00FF00).setX 3 0x0FF00FF0) 0x17123000 (fun t => t.readX 1 == 0xFFF0FFF0 && t.pc ==
      0x00001004) = true := by decide
theorem test_xor_V81 :
    runsTo (base.setX 1 0xDEADBEEF) 0x18111000 (fun t => t.readX 1 == 0x00000000 && t.pc == 0x00001004) = true
      := by decide
theorem test_not_V83 :
    runsTo (base.setX 2 0xF0F0F0F0) 0x19120000 (fun t => t.readX 1 == 0x0F0F0F0F && t.pc == 0x00001004) = true
      := by decide
theorem test_eq_V94 :
    runsTo ((base.setX 2 0x80000000).setX 3 0x80000000) 0x1A123000 (fun t => t.readX 1 == 0x00000001 && t.pc ==
      0x00001004) = true := by decide
theorem test_ne_V95 :
    runsTo ((base.setX 2 0x80000000).setX 3 0x80000000) 0x1B123000 (fun t => t.readX 1 == 0x00000000 && t.pc ==
      0x00001004) = true := by decide
theorem test_lt_V96 :
    runsTo ((base.setX 2 0x80000000).setX 3 0x80000000) 0x1C123000 (fun t => t.readX 1 == 0x00000000 && t.pc ==
      0x00001004) = true := by decide
theorem test_ltu_V97 :
    runsTo ((base.setX 2 0x80000000).setX 3 0x80000000) 0x1D123000 (fun t => t.readX 1 == 0x00000000 && t.pc ==
      0x00001004) = true := by decide
theorem test_gt_V98 :
    runsTo ((base.setX 2 0x80000000).setX 3 0x80000000) 0x1E123000 (fun t => t.readX 1 == 0x00000000 && t.pc ==
      0x00001004) = true := by decide
theorem test_gtu_V99 :
    runsTo ((base.setX 2 0x80000000).setX 3 0x80000000) 0x1F123000 (fun t => t.readX 1 == 0x00000000 && t.pc ==
      0x00001004) = true := by decide
theorem test_le_V100 :
    runsTo ((base.setX 2 0x80000000).setX 3 0x80000000) 0x20123000 (fun t => t.readX 1 == 0x00000001 && t.pc ==
      0x00001004) = true := by decide
theorem test_leu_V101 :
    runsTo ((base.setX 2 0x80000000).setX 3 0x80000000) 0x21123000 (fun t => t.readX 1 == 0x00000001 && t.pc ==
      0x00001004) = true := by decide
theorem test_ge_V102 :
    runsTo ((base.setX 2 0x80000000).setX 3 0x80000000) 0x22123000 (fun t => t.readX 1 == 0x00000001 && t.pc ==
      0x00001004) = true := by decide
theorem test_geu_V103 :
    runsTo ((base.setX 2 0x80000000).setX 3 0x80000000) 0x23123000 (fun t => t.readX 1 == 0x00000001 && t.pc ==
      0x00001004) = true := by decide
theorem test_b_V105 : runsTo ((withBias base .zero)) 0x2400FFFE (fun t => t.pc == 0x00000FF8) = true := by decide
theorem test_be_V110 :
    runsTo ((withBias ((base.setX 1 0x00000005).setX 2 0x00000006) .zero)) 0x25120004 (fun t => t.pc ==
      0x00001004) = true := by decide
theorem test_bne_V112 :
    runsTo ((withBias ((base.setX 1 0x00000005).setX 2 0x00000005) .zero)) 0x26120004 (fun t => t.pc ==
      0x00001004) = true := by decide
theorem test_bnez_V114 :
    runsTo ((withBias (base.setX 1 0x00000000) .zero)) 0x2610FFFF (fun t => t.pc == 0x00001004) = true := by
      decide
theorem test_blt_V116 :
    runsTo ((withBias ((base.setX 1 0x00000001).setX 2 0x00000001) .zero)) 0x27120002 (fun t => t.pc ==
      0x00001004) = true := by decide
theorem test_bgt_V118 :
    runsTo ((withBias ((base.setX 1 0x7FFFFFFF).setX 2 0x80000000) .zero)) 0x28120002 (fun t => t.pc ==
      0x00001008) = true := by decide
theorem test_j_V136 : runsTo (base.setPc 0x0000FFF8) 0x29000001 (fun t => t.pc == 0x00000004) = true := by decide
theorem test_jr_V139 : runsTo (base) 0x2A000000 (fun t => t.pc == 0x00000000) = true := by decide
theorem test_call_stops_V140 : refusesWith (base.setX 1 0x00002000) 0x2B100000 .callUndecided = true := by decide
theorem test_ret_stops_V141 : refusesWith (base) 0x2C000000 .retUndecided = true := by decide
theorem test_lw_V146 :
    runsTo ((withBytes (base.setX 2 0x00000200) 0x200 [0x44, 0x33, 0x22, 0x11, 0x80, 0xFF, 0x7F, 0x00]))
      0x2D120004 (fun t => t.readX 1 == 0x007FFF80 && t.pc == 0x00001004) = true := by decide
theorem test_lw_stops_V156 :
    faultsWith ((withBytes (base.setX 2 0x00000200) 0x200 [0x44, 0x33, 0x22, 0x11, 0x80, 0xFF, 0x7F, 0x00]))
      0x2D120002 (.misaligned 0x00000202 4 .load) = true := by decide
theorem test_lh_V151 :
    runsTo ((withBytes (base.setX 2 0x00000200) 0x200 [0x44, 0x33, 0x22, 0x11, 0x80, 0xFF, 0x7F, 0x00]))
      0x2E120004 (fun t => t.readX 1 == 0xFFFFFF80 && t.pc == 0x00001004) = true := by decide
theorem test_lh_stops_V157 :
    faultsWith ((withBytes (base.setX 2 0x00000200) 0x200 [0x44, 0x33, 0x22, 0x11, 0x80, 0xFF, 0x7F, 0x00]))
      0x2E120001 (.misaligned 0x00000201 2 .load) = true := by decide
theorem test_lb_V155 :
    runsTo ((withBytes (base.setX 2 0x00000200) 0x200 [0x44, 0x33, 0x22, 0x11, 0x80, 0xFF, 0x7F, 0x00]))
      0x2F120005 (fun t => t.readX 1 == 0xFFFFFFFF && t.pc == 0x00001004) = true := by decide
theorem test_lb_stops_V161 :
    faultsWith (base.setX 2 0x00000000) 0x2F12FFFF (.accessFault 0xFFFFFFFF 1 .load) = true := by decide
theorem test_lf_V164 :
    runsTo ((withBytes (base.setX 2 0x00000200) 0x200 [0x00, 0x00, 0x00, 0x00, 0x00, 0x00, 0xF0, 0x3F]))
      0x30920000 (fun t => t.readF 9 == 0x3FF0000000000000 && t.pc == 0x00001004) = true := by decide
theorem test_lf_stops_V165 :
    faultsWith (base.setX 2 0x00000200) 0x30120004 (.misaligned 0x00000204 8 .load) = true := by decide
theorem test_li_V167 :
    runsTo (base) 0x31107FFF (fun t => t.readX 1 == 0x00007FFF && t.pc == 0x00001004) = true := by decide
theorem test_liu_V169 :
    runsTo (base) 0x32108000 (fun t => t.readX 1 == 0x00008000 && t.pc == 0x00001004) = true := by decide
theorem test_lih_V173 :
    runsTo (base) 0x3310FFFF (fun t => t.readX 1 == 0xFFFF0000 && t.pc == 0x00001004) = true := by decide
theorem test_sw_V177 :
    runsTo ((withBytes (base.setX 2 0x00000300) 0x300 [0x09, 0x09, 0x09, 0x09])) 0x34020000 (fun t =>
      Memory.readBytes t.mem 0x300 4 == [0x00, 0x00, 0x00, 0x00] && t.pc == 0x00001004) = true := by decide
theorem test_sw_stops_V178 :
    faultsWith ((base.setX 1 0x00000001).setX 2 0x00000300) 0x34120001 (.misaligned 0x00000301 4 .store) = true
      := by decide
theorem test_sh_V175 :
    runsTo ((base.setX 1 0x11223344).setX 2 0x00000300) 0x35120002 (fun t => Memory.readBytes t.mem 0x302 2 ==
      [0x44, 0x33] && t.pc == 0x00001004) = true := by decide
theorem test_sh_stops_V179 :
    faultsWith ((base.setX 1 0x00000001).setX 2 0x0000FFFF) 0x35120000 (.misaligned 0x0000FFFF 2 .store) = true
      := by decide
theorem test_sb_V180 :
    runsTo ((base.setX 1 0x000000AB).setX 2 0x0000FFFF) 0x36120000 (fun t => Memory.readBytes t.mem 0xFFFF 1 ==
      [0xAB] && t.pc == 0x00001004) = true := by decide
theorem test_sb_stops_V181 :
    faultsWith ((base.setX 1 0x000000AB).setX 2 0x0000FFFF) 0x36120001 (.accessFault 0x00010000 1 .store) = true
      := by decide
theorem test_sf_V183 :
    runsTo ((base.setX 2 0x00000200).setF 1 0x400921FB54442D18) 0x37210008 (fun t => Memory.readBytes t.mem
      0x208 8 == [0x18, 0x2D, 0x44, 0x54, 0xFB, 0x21, 0x09, 0x40] && t.pc == 0x00001004) = true := by decide
theorem test_sf_stops_V184 :
    faultsWith ((base.setX 2 0x00000204).setF 15 0x0000000000000001) 0x372F0000 (.misaligned 0x00000204 8
      .store) = true := by decide
theorem test_popw_stops_V185 :
    refusesWith (base.setX 12 0x00008000) 0x38100000 (.stackMeaningEmpty "POPW") = true := by decide
theorem test_poph_stops_V186 :
    refusesWith (base.setX 12 0x00008000) 0x39100000 (.stackMeaningEmpty "POPH") = true := by decide
theorem test_popb_stops_V187 :
    refusesWith (base.setX 12 0x00008000) 0x3A100000 (.stackMeaningEmpty "POPB") = true := by decide
theorem test_popf_stops_V188 :
    refusesWith (base.setX 12 0x00008000) 0x3B100000 (.stackMeaningEmpty "POPF") = true := by decide
theorem test_popa_stops_V189 :
    refusesWith (base.setX 12 0x00008000) 0x3C100000 (.stackMeaningEmpty "POPA") = true := by decide
theorem test_pshw_stops_V190 :
    refusesWith (base.setX 12 0x00008000) 0x3D100000 (.stackMeaningEmpty "PSHW") = true := by decide
theorem test_pshh_stops_V191 :
    refusesWith (base.setX 12 0x00008000) 0x3E100000 (.stackMeaningEmpty "PSHH") = true := by decide
theorem test_pshb_stops_V192 :
    refusesWith (base.setX 12 0x00008000) 0x3F100000 (.stackMeaningEmpty "PSHB") = true := by decide
theorem test_pshf_stops_V193 :
    refusesWith (base.setX 12 0x00008000) 0x40100000 (.stackMeaningEmpty "PSHF") = true := by decide
theorem test_psha_stops_V194 :
    refusesWith (base.setX 12 0x00008000) 0x41100000 (.stackMeaningEmpty "PSHA") = true := by decide
theorem test_addf_V196 :
    runsTo ((base.setF 2 0x7FE1CCF385EBC8A0).setF 3 0x7FE1CCF385EBC8A0) 0x66530000 (fun t => t.readF 1 ==
      0x7FF0000000000000 && t.pc == 0x00001004) = true := by decide +kernel
theorem test_subf_V200 :
    runsTo ((base.setF 2 0x3FF0000000000000).setF 3 0x3FF0000000000000) 0x68530000 (fun t => t.readF 1 ==
      0x0000000000000000 && t.pc == 0x00001004) = true := by decide +kernel
theorem test_mulf_V203 :
    runsTo ((base.setF 2 0x0000000000000001).setF 3 0x3FE0000000000000) 0x6A530000 (fun t => t.readF 1 ==
      0x0000000000000000 && t.pc == 0x00001004) = true := by decide +kernel
theorem test_divf_V205 :
    runsTo ((base.setF 2 0x3FF0000000000000).setF 3 0x0000000000000000) 0x6C530000 (fun t => t.readF 1 ==
      0x7FF0000000000000 && t.pc == 0x00001004) = true := by decide +kernel
theorem test_eqf_V214 :
    runsTo ((base.setF 2 0x0000000000000000).setF 3 0x8000000000000000) 0x6E530000 (fun t => t.readF 1 ==
      0x3FF0000000000000 && t.pc == 0x00001004) = true := by decide +kernel
theorem test_nef_V215 :
    runsTo ((base.setF 2 0x0000000000000000).setF 3 0x8000000000000000) 0x70530000 (fun t => t.readF 1 ==
      0x0000000000000000 && t.pc == 0x00001004) = true := by decide +kernel
theorem test_ltf_V216 :
    runsTo ((base.setF 2 0x0000000000000000).setF 3 0x8000000000000000) 0x72530000 (fun t => t.readF 1 ==
      0x0000000000000000 && t.pc == 0x00001004) = true := by decide +kernel
theorem test_gtf_V217 :
    runsTo ((base.setF 2 0x0000000000000000).setF 3 0x8000000000000000) 0x74530000 (fun t => t.readF 1 ==
      0x0000000000000000 && t.pc == 0x00001004) = true := by decide +kernel
theorem test_lef_V218 :
    runsTo ((base.setF 2 0x0000000000000000).setF 3 0x8000000000000000) 0x76530000 (fun t => t.readF 1 ==
      0x3FF0000000000000 && t.pc == 0x00001004) = true := by decide +kernel
theorem test_gef_V219 :
    runsTo ((base.setF 2 0x0000000000000000).setF 3 0x8000000000000000) 0x78530000 (fun t => t.readF 1 ==
      0x3FF0000000000000 && t.pc == 0x00001004) = true := by decide +kernel
theorem test_fabs_V227 :
    runsTo (base.setF 2 0x8000000000000000) 0x7C500000 (fun t => t.readF 1 == 0x0000000000000000 && t.pc ==
      0x00001004) = true := by decide +kernel
theorem test_flor_V230 :
    runsTo (base.setF 2 0x3FF8000000000000) 0x84500000 (fun t => t.readF 1 == 0x3FF0000000000000 && t.pc ==
      0x00001004) = true := by decide +kernel
theorem test_ceil_V234 :
    runsTo (base.setF 2 0xBFE0000000000000) 0x86500000 (fun t => t.readF 1 == 0x8000000000000000 && t.pc ==
      0x00001004) = true := by decide +kernel
theorem test_sqrt_V237 :
    runsTo (base.setF 2 0x4022000000000000) 0x94500000 (fun t => t.readF 1 == 0x4008000000000000 && t.pc ==
      0x00001004) = true := by decide +kernel
theorem test_fmod_V241 :
    runsTo ((base.setF 2 0x401E000000000000).setF 3 0xC000000000000000) 0x96530000 (fun t => t.readF 1 ==
      0x3FF8000000000000 && t.pc == 0x00001004) = true := by decide +kernel
theorem test_cif_V246 :
    runsTo (base.setX 2 0x80000000) 0x98500000 (fun t => t.readF 1 == 0xC1E0000000000000 && t.pc == 0x00001004)
      = true := by decide +kernel
theorem test_cuf_V249 :
    runsTo (base.setX 2 0x80000000) 0x9A500000 (fun t => t.readF 1 == 0x41E0000000000000 && t.pc == 0x00001004)
      = true := by decide +kernel
theorem test_cfi_V251 :
    runsTo (base.setF 1 0x4007333333333333) 0x9C880000 (fun t => t.readX 2 == 0x00000002 && t.pc == 0x00001004)
      = true := by decide +kernel
theorem test_cfi_stops_V255 :
    faultsWith (base.setF 1 0x41E0000000000000) 0x9C880000 .fpUndefined = true := by decide +kernel
theorem test_cfu_V261 :
    runsTo (base.setF 1 0x41DFFFFFFFE00000) 0x9E880000 (fun t => t.readX 2 == 0x7FFFFFFF && t.pc == 0x00001004)
      = true := by decide +kernel
theorem test_cfu_stops_V262 :
    faultsWith (base.setF 1 0xC1E0000000000000) 0x9E880000 .fpUndefined = true := by decide +kernel
theorem test_idle_stops_V278 : refusesWith (base.setX 1 0x00000000) 0xFE000000 .idleNotDescribed = true := by decide
theorem test_cli_V265 :
    runsTo ((base.setX 1 0x00000000).setIena 0x00000001) 0xFE490000 (fun t => t.readX 1 == 0x00000001 && t.iena
      == 0x00000000 && t.pc == 0x00001004) = true := by decide
theorem test_sti_stops_V279 :
    refusesWith (base.setX 1 0x00000000) 0xFE500000 (.controlWriteRefused "STI") = true := by decide
theorem test_lusp_V277 :
    runsTo (base.setUsp 0x00001234) 0xFE8F0000 (fun t => t.readX 7 == 0x00001234 && t.pc == 0x00001004) = true
      := by decide
theorem test_susp_V266 :
    runsTo (base.setX 2 0x00008000) 0xFE920000 (fun t => t.usp == 0x00008000 && t.pc == 0x00001004) = true := by
      decide
theorem test_iret_stops_V280 : refusesWith (base.setX 1 0x00000000) 0xFEC00000 .iretNotDescribed = true := by decide
theorem test_bin_V269 :
    runsTo (base.setX 1 0x00000005) 0xFF090000 (fun t => t.readX 1 == 0xFFFFFFFF && t.pc == 0x00001004) = true
      := by decide
theorem test_bout_V273 :
    runsTo (base) 0xFF100000 (fun t => t.consoleOut == [0x00] && t.pc == 0x00001004) = true := by decide
theorem test_trap_stops_V281 : refusesWith (base.setX 1 0x00000000) 0xFF800000 .trapNotDescribed = true := by decide
theorem test_stiv_V274 :
    runsTo (base.setX 1 0x00000200) 0xFFC10000 (fun t => t.ivec == 0x00000200 && t.pc == 0x00001004) = true :=
      by decide
theorem test_stpd_V275 :
    runsTo (base.setX 1 0x00010000) 0xFFC90000 (fun t => t.pdir == 0x00010000 && t.pc == 0x00001004) = true :=
      by decide
theorem test_stpg_stops_V282 :
    refusesWith (base.setX 1 0x00000000) 0xFFD10000 (.controlWriteRefused "STPG") = true := by decide
theorem test_stto_stops_V283 :
    refusesWith (base.setX 1 0x00000000) 0xFFD90000 (.controlWriteRefused "STTO") = true := by decide
theorem test_lmsz_V287 :
    runsTo ((withMemsz base 0x00100000)) 0xFF490000 (fun t => t.readX 1 == 0x00100000 && t.pc == 0x00001004) =
      true := by decide
theorem test_mcpy_V289 :
    runsTo (((base.setX 1 0x00002000).setX 2 0x00003000).setX 3 0x00000000) 0xFF514C00 (fun t => t.pc ==
      0x00001004) = true := by decide
theorem test_mcpy_stops_V291 :
    refusesWith (((base.setX 1 0x00002001).setX 2 0x00002000).setX 3 0x00000004) 0xFF514C00 .mcpyOverlap = true
      := by decide
theorem test_mcmp_stops_V300 :
    refusesWith (((base.setX 1 0x00002000).setX 2 0x00003000).setX 3 0x00000004) 0xFF594C00 .mcmpNoDestination =
      true := by decide
theorem test_mchr_stops_V301 :
    refusesWith (((base.setX 1 0x00002000).setX 2 0x00000041).setX 3 0x00000004) 0xFF614C00 .mchrNoDestination =
      true := by decide
theorem test_mset_V297 :
    runsTo (((base.setX 1 0x00003000).setX 2 0x00001234).setX 3 0x00000002) 0xFF694C00 (fun t =>
      Memory.readBytes t.mem 0x3000 2 == [0x34, 0x34] && t.pc == 0x00001004) = true := by decide
theorem test_mset_stops_V299 :
    faultsWith (((base.setX 1 0x0000FFFF).setX 2 0x00000001).setX 3 0x00000002) 0xFF694C00 (.accessFault
      0x00010000 1 .store) = true := by decide

/-! ## Settings other than the defaults, by hand from the rules -/

/-- The settings of the reset state on the small state above. -/
def launched : State := { base with params := launchParams }

/-- R241: the slot at sp - 8, low byte first; SP moves down by 8. -/
theorem test_pshw_candidate : runsTo (launched.setX 12 0x2008 |>.setX 1 0x11223344) 0x3D100000
    (fun t => t.readX 12 == 0x2000 && Memory.readBytes t.mem 0x2000 5 == [0x44, 0x33, 0x22, 0x11, 0x00]) = true := by
  decide

/-- R241: when ra = 12 the loaded value wins. -/
theorem test_popw_of_sp : runsTo (withBytes (launched.setX 12 0x2000) 0x2000 [0x78, 0x56, 0x34, 0x12]) 0x38C00000
    (fun t => t.readX 12 == 0x12345678) = true := by decide

theorem test_pshf_candidate : runsTo (launched.setX 12 0x2008 |>.setF 9 0x400921FB54442D18) 0x40900000
    (fun t => t.readX 12 == 0x2000 &&
      Memory.readBytes t.mem 0x2000 8 == [0x18, 0x2D, 0x44, 0x54, 0xFB, 0x21, 0x09, 0x40]) = true := by decide

theorem test_popf_candidate :
    runsTo (withBytes (launched.setX 12 0x2000) 0x2000 [0, 0, 0, 0, 0, 0, 0xF0, 0x3F]) 0x3BF00000
    (fun t => t.readF 15 == 0x3FF0000000000000 && t.readX 12 == 0x2008) = true := by decide

/-- R241 names `sp`, not the slot. -/
theorem test_pshw_misaligned : faultsWith (launched.setX 12 0x2004) 0x3D100000 (.misaligned 0x2004 8 .stack) = true := by
  decide

/-- R76, bytewise: four single bytes at 0x2001. -/
theorem test_lw_bytewise : runsTo (withBytes (launched.setX 2 0x2000) 0x2001 [0x78, 0x56, 0x34, 0x12]) 0x2D120001
    (fun t => t.readX 1 == 0x12345678) = true := by decide

/-- R153, any value: the run goes on and one free value is drawn. -/
theorem test_div_by_zero_any_value : runsTo (launched.setX 2 7 |>.setX 3 0) 0x0A123000
    (fun t => t.pc == 0x1004 && t.draws == 1) = true := by decide

/-- R312: the source's effect is IENA := 1. -/
theorem test_sti_recorded : runsTo launched 0xFE500000 (fun t => t.iena == 1 && t.pc == 0x1004) = true := by decide

/-- R321, R322: refused at launch, a write of zero included. -/
theorem test_stpg_stto_refused : refusesWith (launched.setX 1 0) 0xFFD10000 (.controlWriteRefused "STPG") = true ∧
    refusesWith (launched.setX 1 0) 0xFFD90000 (.controlWriteRefused "STTO") = true := by decide

/-- STPG and STTO recorded (log 4): the source's effect of R321 and R322. -/
def recording : State := { base with params := { launchParams with pgToWrite := .record } }

theorem test_stpg_recorded : runsTo (recording.setX 1 5) 0xFFD10000 (fun t => t.pg == 5) = true := by decide

theorem test_stto_recorded : runsTo (recording.setX 1 9) 0xFFD90000 (fun t => t.tout == 9) = true := by decide

/-- R316: the byte is consumed and zero-extended. -/
theorem test_bin_finite : runsTo (base.setConsoleIn ⟨[0xC8, 0x41], .ends⟩) 0xFF090000
    (fun t => t.readX 1 == 0xC8 && t.consoleIn == ⟨[0x41], .ends⟩) = true := by decide

/-- R7: an infinite input has a next byte however many have been read. -/
theorem test_bin_infinite : runsTo (base.setConsoleIn ⟨[], .endless 4 9⟩) 0xFF090000
    (fun t => t.pc == 0x1004 && t.consoleIn == ⟨[], .endless 4 10⟩) = true := by decide

/-- R260: with every member of FP uninterpreted, FABS writes the member's value. -/
theorem test_fp_given : runsTo { base with params := { defaultParams with fp := .given 3 } } 0x7C500000
    (fun t => t.pc == 0x1004 && t.draws == 0) = true := by decide

/-- R324: only `halted` changes, the pc stays; R435: then there is no next step. -/
theorem test_halt : runsTo base 0xFFFFFFFF (fun t => t.halted && t.pc == 0x1000 &&
    (match step t with | .fault r => decide (r = .halted) | _ => false)) = true := by decide

/-- R264: POW, LOG, LOGT, EXP, SIN, COS, TAN, ASIN, ACOS and ATAN complete; their values are free. -/
theorem test_elementary_complete : ∀ w ∈ [0x7A530000, 0x7E500000, 0x80500000, 0x82500000, 0x88500000, 0x8A500000,
    0x8C500000, 0x8E500000, 0x90500000, 0x92500000],
    runsTo base w (fun t => t.pc == 0x1004 && t.draws == 0) = true := by decide

/-- R261: inf - inf is a NaN of no known bits: one free value is drawn. -/
theorem test_subf_nan : runsTo (base.setF 2 0x7FF0000000000000 |>.setF 3 0x7FF0000000000000) 0x68530000
    (fun t => t.pc == 0x1004 && t.draws == 1) = true := by decide

/-- R323. -/
theorem test_lvad_reads : runsTo ({ launched with vadr := 0x1234 }) 0xFFE10000 (fun t => t.readX 1 == 0x1234) = true := by
  decide

/-- R90, fault on store to code. -/
theorem test_store_to_code : faultsWith
    ({ base with params := { defaultParams with ifetchCoherent := .faultOnStoreToCode, codeRegions := [⟨0x1000, 16⟩] } } |>.setX 2 0x100C)
    0x34120000 (.accessFault 0x100C 4 .store) = true := by decide


/-! ## Witnesses: a state and operands that meet the hypotheses of each statement, clause by clause, at a boundary -/

theorem inMemory_of (s : State) (a : Word) (n : Nat) (h : firstBad s.mayRead a n = none) : s.InMemory a n :=
  firstBad_mayRead.mp h

theorem storable_of (s : State) (a : Word) (n : Nat) (h : firstBad s.mayStore a n = none) : s.Storable a n :=
  firstBad_mayStore.mp h

theorem not_inMemory_of (s : State) (a : Word) (n : Nat) (h : firstBad s.mayRead a n ≠ none) : ¬ s.InMemory a n :=
  fun g => h (firstBad_mayRead.mpr g)

theorem not_storable_of (s : State) (a : Word) (n : Nat) (h : firstBad s.mayStore a n ≠ none) : ¬ s.Storable a n :=
  fun g => h (firstBad_mayStore.mpr g)

theorem aligned_of (s : State) (a : Word) (n : Nat) (h : s.alignedData a n = true) : s.AlignedFor a n :=
  State.alignedData_iff.mp h

theorem not_aligned_of (s : State) (a : Word) (n : Nat) (h : s.alignedData a n = false) : ¬ s.AlignedFor a n :=
  fun g => by rw [State.alignedData_iff.mpr g] at h; cases h

/-- ADD T0, T1, T2 decodes; the first word of op_code 42 does not. -/
theorem witness_DecodeFollowsOpcodeTable : decode 0x01123000#32 = .ok (.add 1 2 3) ∧
    decode 0x42000000#32 = .error .unassignedOpcode := by decide

theorem witness_DecodeEncodeAgree : WellFormed (.mcpy 7 0 7) = true ∧ WellFormed (.bnez 15 0xFFFF) = true := by decide

theorem witness_DecodedInstructionsReencode :
    decode 0x01FFFFFF#32 = .ok (.add 15 15 15) ∧ decode 0xFFFFFFFF#32 = .ok .halt := by decide

theorem witness_UnusedBitsAreIgnored : decode 0x01123000#32 = .ok (.add 1 2 3) ∧
    0x01123FFF#32 &&& (opcodeRow (.add 1 2 3)).used = 0x01123000#32 &&& (opcodeRow (.add 1 2 3)).used ∧
    WellFormed (.mset 7 7 7) = true := by decide

theorem witness_OpcodeRowsDoNotOverlap : opcodeRow (.bne 0 0 0) ∈ opcodeTable ∧ opcodeRow (.bnez 0 0) ∈ opcodeTable ∧
    (opcodeRow (.bne 0 0 0)).covers 0x2610FFFF#32 = true ∧ (opcodeRow (.bnez 0 0)).covers 0x2610FFFF#32 = true := by
  decide

/-- The state at whose pc the word `w` stands. -/
def holding (w : Nat) : State := base.withFetchWord 32 w

theorem holding_running (w : Nat) : (holding w).Running := ⟨rfl, rfl⟩

theorem holding_fetchable (w : Nat) : (holding w).Fetchable :=
  ⟨by show (0x1000#32).toNat % 4 = 0; decide, firstBad_mayRead.mp rfl⟩

theorem witness_NopAndHaltAreWholeWords :
    (0x00000001#32 &&& 0xFF000000#32 = 0#32 ∧ 0x00000001#32 ≠ 0#32) ∧
    (0xFFF80000#32 &&& 0xFFF80000#32 = 0xFFF80000#32 ∧ 0xFFF80000#32 ≠ 0xFFFFFFFF#32) ∧
    (holding 0x00000001).wordAt (holding 0x00000001).pc = 0x00000001#32 ∧
    (holding 0xFFF80000).wordAt (holding 0xFFF80000).pc = 0xFFF80000#32 ∧
    (holding 0xFFFFFFFE).wordAt (holding 0xFFFFFFFE).pc = 0xFFFFFFFE#32 := by decide

/-- The word at the last four bytes of memory can be fetched and decodes. -/
theorem witness_StepRunsDecodedInstruction :
    ((base.setPc 0xFFFC).withFetchWord 32 0x01123000).Running ∧
    ((base.setPc 0xFFFC).withFetchWord 32 0x01123000).Fetchable ∧
    decode (((base.setPc 0xFFFC).withFetchWord 32 0x01123000).wordAt 0xFFFC) = .ok (.add 1 2 3) :=
  ⟨⟨rfl, rfl⟩, ⟨by show (0xFFFC#32).toNat % 4 = 0; decide, firstBad_mayRead.mp rfl⟩, by decide⟩

theorem witness_StepStopsBeforeExecution :
    base.setHalted.halted = true ∧ base.Running ∧ (base.setPc 0x1002).pc.toNat % 4 ≠ 0 ∧
    (base.setPc 0x10000).pc.toNat % 4 = 0 ∧ ¬ (base.setPc 0x10000).InMemory (base.setPc 0x10000).pc 4 ∧
    decode ((holding 0x42000000).wordAt (holding 0x42000000).pc) = .error .unassignedOpcode :=
  ⟨rfl, ⟨rfl, rfl⟩, by decide, by decide, not_inMemory_of _ _ _ (by decide), by decide⟩

theorem witness_PgNonzeroStopsStep : (base.setPg 1).halted = false ∧ (base.setPg 1).pg ≠ 0#32 := by decide

/-- -2^31 by 2, and -2^31 + 1 by -1: divisors next to the cases without a result. -/
theorem witness_DivModResults :
    ((base.setX 2 0x80000000).setX 3 2).readX 3 ≠ 0#32 ∧
    ¬ (((base.setX 2 0x80000001).setX 3 0xFFFFFFFF).readX 2 = 0x80000000#32 ∧
      ((base.setX 2 0x80000001).setX 3 0xFFFFFFFF).readX 3 = 0xFFFFFFFF#32) := by decide

theorem witness_DivModWithoutResult :
    (base.setX 3 0).readX 3 = 0#32 ∧ ((base.setX 2 0x80000000).setX 3 0xFFFFFFFF).readX 2 = 0x80000000#32 ∧
    ((base.setX 2 0x80000000).setX 3 0xFFFFFFFF).readX 3 = 0xFFFFFFFF#32 ∧
    (base.setX 3 0).params.divUndefined = .fault ∧ (launched.setX 3 0).params.divUndefined = .anyValue := by decide

theorem witness_ShiftResults : ((base.setX 3 32).readX 3).toNat ≤ 32 ∧ 32 < ((base.setX 3 33).readX 3).toNat ∧
    (0x0020#16).toNat ≤ 32 ∧ 32 < (0x0021#16).toNat ∧ base.params.shiftUndefined = .fault ∧
    launched.params.shiftUndefined = .anyValue := by decide

theorem witness_ComparisonsWriteOneOrZero : ∃ t u, exec (.lt 1 2 3) base = .next t ∧ exec (.gt 1 3 2) base = .next u ∧
    (1 : Reg) ≠ 0 := ⟨_, _, rfl, rfl, by decide⟩

theorem witness_BnezIsBneWithR0 : 0x26F0FFFF#32 &&& 0xFF0F0000#32 = 0x26000000#32 := by decide

theorem witness_EffectiveAddress : base.params.lsImmExt = .sign ∧
    ({ base with params := { base.params with lsImmExt := .zero } } : State).params.lsImmExt = .zero ∧
    (0x7FFF#16).msb = false := by decide

/-- The last word, half, byte and long of memory, through base R0 + immediate and through a register. -/
theorem witness_LoadsComplete :
    let s := base.setX 2 0x10000
    (s.AlignedFor (s.effAddr 2 0xFFFC) 4 ∧ s.InMemory (s.effAddr 2 0xFFFC) 4) ∧
    (s.AlignedFor (s.effAddr 2 0xFFFE) 2 ∧ s.InMemory (s.effAddr 2 0xFFFE) 2) ∧
    s.InMemory (s.effAddr 2 0xFFFF) 1 ∧
    s.AlignedFor (s.effAddr 2 0xFFF8) 8 ∧ s.InMemory (s.effAddr 2 0xFFF8) 8 :=
  ⟨⟨aligned_of _ _ _ (by decide), inMemory_of _ _ _ (by decide)⟩,
    ⟨aligned_of _ _ _ (by decide), inMemory_of _ _ _ (by decide)⟩, inMemory_of _ _ _ (by decide),
    aligned_of _ _ _ (by decide), inMemory_of _ _ _ (by decide)⟩

theorem witness_StoresComplete :
    let s := base.setX 2 0x10000
    Memory.wf s.mem ∧ (s.AlignedFor (s.effAddr 2 0xFFFC) 4 ∧ s.Storable (s.effAddr 2 0xFFFC) 4) ∧
    (s.AlignedFor (s.effAddr 2 0xFFFE) 2 ∧ s.Storable (s.effAddr 2 0xFFFE) 2) ∧
    s.Storable (s.effAddr 2 0xFFFF) 1 ∧
    s.AlignedFor (s.effAddr 2 0xFFF8) 8 ∧ s.Storable (s.effAddr 2 0xFFF8) 8 :=
  ⟨Memory.reset_wf, ⟨aligned_of _ _ _ (by decide), storable_of _ _ _ (by decide)⟩,
    ⟨aligned_of _ _ _ (by decide), storable_of _ _ _ (by decide)⟩, storable_of _ _ _ (by decide),
    aligned_of _ _ _ (by decide), storable_of _ _ _ (by decide)⟩

/-- Declared code from 0x1000 on, stores to it faulting (R90). -/
def guarded : State :=
  { base with params := { defaultParams with ifetchCoherent := .faultOnStoreToCode, codeRegions := [⟨0x1000, 16⟩] } }

/-- A base register that holds the first address beyond memory. -/
def beyond : State := base.setX 2 0x10000

/-- One past each boundary: an odd address, the first address beyond memory, the last byte of declared code. -/
theorem witness_LoadsAndStoresStop :
    (¬ base.AlignedFor (base.effAddr 0 0x1001) 2 ∧ ¬ base.AlignedFor (base.effAddr 0 0x1002) 4 ∧
      ¬ base.AlignedFor (base.effAddr 0 0x1004) 8) ∧
    (beyond.AlignedFor (beyond.effAddr 2 0) 8 ∧ ¬ beyond.InMemory (beyond.effAddr 2 0) 1 ∧
      ¬ beyond.InMemory (beyond.effAddr 2 0) 2 ∧ ¬ beyond.InMemory (beyond.effAddr 2 0) 4 ∧
      ¬ beyond.InMemory (beyond.effAddr 2 0) 8 ∧ ¬ beyond.Storable (beyond.effAddr 2 0) 4) ∧
    guarded.AlignedFor (guarded.effAddr 0 0x100F) 1 ∧ ¬ guarded.Storable (guarded.effAddr 0 0x100F) 1 :=
  ⟨⟨not_aligned_of _ _ _ (by decide), not_aligned_of _ _ _ (by decide), not_aligned_of _ _ _ (by decide)⟩,
    ⟨aligned_of _ _ _ (by decide), not_inMemory_of _ _ _ (by decide), not_inMemory_of _ _ _ (by decide),
      not_inMemory_of _ _ _ (by decide), not_inMemory_of _ _ _ (by decide), not_storable_of _ _ _ (by decide)⟩,
    aligned_of _ _ _ (by decide), not_storable_of _ _ _ (by decide)⟩

/-- The instruction goes on. -/
def completes (i : Instr) (s : State) : Bool :=
  match exec i s with
  | .next _ => true
  | _ => false

theorem next_of {i : Instr} {s : State} (h : completes i s = true) : ∃ t, exec i s = .next t := by
  unfold completes at h
  split at h
  · exact ⟨_, ‹_›⟩
  · cases h

theorem witness_StoreThenLoadReturnsValue : Memory.wf base.mem ∧
    (∃ t, exec (.sw 1 0 0x7FFC) base = .next t) ∧ (∃ t, exec (.sh 1 0 0x7FFE) base = .next t) ∧
    (∃ t, exec (.sb 1 0 0x7FFF) base = .next t) ∧ ∃ t, exec (.sf 0 1 0x7FF8) base = .next t :=
  ⟨Memory.reset_wf, next_of (by decide), next_of (by decide), next_of (by decide), next_of (by decide)⟩

theorem witness_StackInstructionsRefuse : base.params.stackSemantics = .refuse := by decide

/-- The lowest and the highest slot of memory. -/
theorem witness_CandidatePushesStore : ∀ sp ∈ [8#32, 0x10000#32],
    let s := launched.setX 12 sp
    Memory.wf s.mem ∧ s.params.stackSemantics = .candidate ∧ (s.readX spIndex).toNat % 8 = 0 ∧
      s.Storable s.pushAddr 4 ∧ s.Storable s.pushAddr 8 := by
  intro sp h
  rcases List.mem_cons.mp h with rfl | h
  · exact ⟨Memory.reset_wf, by decide, by decide, storable_of _ _ _ (by decide), storable_of _ _ _ (by decide)⟩
  · cases List.mem_singleton.mp h
    exact ⟨Memory.reset_wf, by decide, by decide, storable_of _ _ _ (by decide), storable_of _ _ _ (by decide)⟩

theorem witness_CandidatePopsLoad :
    let s := launched.setX 12 0xFFF8
    s.params.stackSemantics = .candidate ∧ (s.readX 12).toNat % 8 = 0 ∧ s.InMemory (s.readX 12) 4 ∧
      s.InMemory (s.readX 12) 8 :=
  ⟨by decide, by decide, inMemory_of _ _ _ (by decide), inMemory_of _ _ _ (by decide)⟩

theorem witness_PushThenPopReturnsValue : Memory.wf (launched.setX 12 0x10000).mem ∧
    (∃ t, exec (.pshw 12) (launched.setX 12 0x10000) = .next t) ∧
    ∃ t, exec (.pshf 15) (launched.setX 12 0x10000) = .next t :=
  ⟨Memory.reset_wf, next_of (by decide), next_of (by decide)⟩

theorem witness_CandidateStackStops :
    launched.params.stackSemantics = .candidate ∧ ((launched.setX 12 0x2004).readX 12).toNat % 8 ≠ 0 ∧
    ((launched.setX 12 0x10000).readX 12).toNat % 8 = 0 ∧
    ¬ (launched.setX 12 0x10000).InMemory ((launched.setX 12 0x10000).readX 12) 4 ∧
    ¬ (launched.setX 12 0x10000).InMemory ((launched.setX 12 0x10000).readX 12) 8 ∧
    ¬ (launched.setX 12 0).Storable ((launched.setX 12 0).readX 12 - 8#32) 4 ∧
    ¬ (launched.setX 12 0).Storable ((launched.setX 12 0).readX 12 - 8#32) 8 :=
  ⟨by decide, by decide, by decide, not_inMemory_of _ _ _ (by decide), not_inMemory_of _ _ _ (by decide),
    not_storable_of _ _ _ (by decide), not_storable_of _ _ _ (by decide)⟩

/-- The greatest finite number, the least subnormal, and one. -/
theorem witness_FloatOpsRoundToNearest :
    FP.isFinite 0x7FEFFFFFFFFFFFFF = true ∧ FP.isFinite 0x0000000000000001 = true ∧
    FP.value 0x7FEFFFFFFFFFFFFF + FP.value 0x7FEFFFFFFFFFFFFF ≠ 0 ∧
    FP.value 0x7FEFFFFFFFFFFFFF - FP.value 0x0000000000000001 ≠ 0 ∧ FP.isZero 0x0000000000000001 = false := by
  decide +kernel

theorem witness_FloatSpecialCases :
    FP.isNan 0x7FF0000000000001 = true ∧ (FP.isNan 0xFFF0000000000000 = false ∧ FP.value 0xFFF0000000000000 < 0) ∧
    FP.isInf 0x7FF0000000000000 = true ∧ FP.isInf 0xFFF0000000000000 = true ∧
    FP.sign 0x7FF0000000000000 ≠ FP.sign 0xFFF0000000000000 ∧ FP.isZero 0x8000000000000000 = true ∧
    (FP.isFinite 0x3FF0000000000000 = true ∧ FP.isZero 0x3FF0000000000000 = false) ∧
    (FP.sign 0x3FF0000000000000 ≠ FP.sign 0xBFF0000000000000 ∧
      FP.value 0x3FF0000000000000 + FP.value 0xBFF0000000000000 = 0) ∧
    FP.value 0x3FF0000000000000 - FP.value 0x3FF0000000000000 = 0 := by decide +kernel

theorem witness_SquareRootRoundsToNearest : FP.isFinite 0x0000000000000001 = true ∧
    FP.sign 0x0000000000000001 = false ∧ FP.isZero 0x0000000000000001 = false := by decide +kernel

theorem witness_FloatArithmeticCompletes : base.params.fp = .binary64 := by decide

theorem witness_ElementaryFunctionsAreFunctions : base.params.fp = .binary64 ∧
    ({ base with params := { defaultParams with fp := .given 3 } } : State).params.fp = .given 3 := by decide

theorem witness_FloatComparisonsWriteOneOrZero : base.params.fp = .binary64 ∧ FP.isFinite 0x7FEFFFFFFFFFFFFF = true ∧
    FP.isNan 0x7FF0000000000000 = false ∧ FP.isNan 0x7FF0000000000001 = true := by decide +kernel

theorem witness_FloorCeilFmodFabsExact : base.params.fp = .binary64 ∧
    FP.isFinite 0xBFE0000000000000 = true ∧ FP.isZero 0x8000000000000000 = true ∧ FP.isInf 0xFFF0000000000000 = true ∧
    FP.isNan 0x7FF0000000000001 = true ∧ FP.isZero 0x0000000000000001 = false := by decide +kernel

/-- 2147483647.0 and -2147483648.0 are the last in range, 2147483648.0 and -2147483649.0 the first out of it. -/
theorem witness_FloatsConvertByTruncation : base.params.fp = .binary64 ∧
    base.fp.toS32 0x41DFFFFFFFC00000 = some 0x7FFFFFFF ∧ base.fp.toS32 0x41E0000000000000 = none ∧
    base.fp.toS32 (base.fp.fabs 0xC1DFFFFFFFC00000) = some 0x7FFFFFFF ∧
    base.fp.toS32 (base.fp.fabs 0xC1E0000000000000) = none ∧
    (FP.value 0x41DFFFFFFFC00000).tdiv FP.unitsPerOne = 2147483647 ∧
    (FP.value 0xC1E0000000000000).tdiv FP.unitsPerOne = -2147483648 ∧
    2147483647 < (FP.value 0x41E0000000000000).tdiv FP.unitsPerOne ∧
    (FP.value 0xC1E0000000200000).tdiv FP.unitsPerOne < -2147483648 ∧
    FP.mag 0xC1DFFFFFFFC00000 / FP.unitsPerOne = 2147483647 ∧
    2147483647 < FP.mag 0xC1E0000000000000 / FP.unitsPerOne ∧
    FP.isFinite 0x41DFFFFFFFC00000 = true ∧ FP.isFinite 0x7FF8000000000000 = false := by decide +kernel

theorem witness_ControlWritesRefuseOrRecord :
    (base.params.stiWrite = .refuse ∧ base.params.pgToWrite = .refuse) ∧ launched.params.stiWrite = .record ∧
    recording.params.pgToWrite = .record := by decide

theorem witness_ConsoleBytesMove : base.consoleIn = ⟨[], .ends⟩ ∧
    (base.setConsoleIn ⟨[0xFF], .ends⟩).consoleIn = ⟨0xFF :: [], .ends⟩ ∧
    (base.setConsoleIn ⟨[], .endless 0 0⟩).consoleIn = ⟨[], .endless 0 0⟩ := by decide

/-- Two ranges that merely touch, up to the last byte of memory. -/
theorem witness_BlockCopyMovesBytes :
    let s := ((base.setX 1 0xFFFD).setX 2 0xFFFA).setX 3 3
    Memory.wf s.mem ∧ ¬ SharesByte (s.readX 1) (s.readX 2) (s.readX 3).toNat ∧
      s.InMemory (s.readX 2) (s.readX 3).toNat ∧ s.Storable (s.readX 1) (s.readX 3).toNat :=
  ⟨Memory.reset_wf, fun h => absurd ((rangesOverlap_iff (by decide)).mpr h) (by decide),
    inMemory_of _ _ _ (by decide), storable_of _ _ _ (by decide)⟩

theorem witness_BlockFillSetsBytes :
    let s := ((base.setX 1 0xFFFC).setX 2 0x1FF).setX 3 4
    Memory.wf s.mem ∧ s.Storable (s.readX 1) (s.readX 3).toNat :=
  ⟨Memory.reset_wf, storable_of _ _ _ (by decide)⟩

/-- Ranges that share one byte; a source, and a destination, whose second byte is the first beyond memory. -/
theorem witness_BlockInstructionsStop :
    SharesByte 0x2002 0x2000 3 ∧
    (¬ SharesByte 0x2000 0xFFFF 2 ∧ base.InMemory 0xFFFF 1 ∧ ¬ base.InMemory 0xFFFF (1 + 1)) ∧
    ¬ SharesByte 0xFFFF 0x2000 2 ∧ base.InMemory 0x2000 2 ∧ base.Storable 0xFFFF 1 ∧ ¬ base.Storable 0xFFFF (1 + 1) :=
  ⟨⟨0, 2, by decide, by decide, by decide⟩,
    ⟨fun h => absurd ((rangesOverlap_iff (by decide)).mpr h) (by decide), inMemory_of _ _ _ (by decide),
      not_inMemory_of _ _ _ (by decide)⟩,
    fun h => absurd ((rangesOverlap_iff (by decide)).mpr h) (by decide), inMemory_of _ _ _ (by decide),
    storable_of _ _ _ (by decide), not_storable_of _ _ _ (by decide)⟩

/-- The step goes on. -/
def stepCompletes (s : State) : Bool :=
  match step s with
  | .next _ => true
  | _ => false

theorem step_next_of {s : State} (h : stepCompletes s = true) : ∃ t, step s = .next t := by
  unfold stepCompletes at h
  split at h
  · exact ⟨_, ‹_›⟩
  · cases h

theorem witness_StepKeepsValid : (State.reset.setX 1 0x2000).Valid ∧
    ∃ t, step ((State.reset.setX 1 0x2000).withFetchWord 32 0x36110001) = .next t :=
  ⟨⟨Memory.reset_wf, fun c hc => (by cases hc), by decide, by decide⟩, step_next_of (by decide)⟩

theorem witness_DefaultModelKeepsPremises : (holding 0xFE490000).PgToPremises ∧ (holding 0xFE490000).DefaultPremises ∧
    ∃ t, step (holding 0xFE490000) = .next t :=
  ⟨⟨rfl, rfl, rfl⟩, ⟨⟨rfl, rfl, rfl⟩, rfl, rfl⟩, step_next_of (by decide)⟩

theorem witness_SystemStateChangesOnlyByItsInstructions : ∃ t, exec .sti launched = .next t ∧ t.iena ≠ launched.iena :=
  ⟨_, rfl, by decide⟩

theorem witness_WriteOnlyRegistersAreInert : (∀ rc, Instr.add 1 2 3 ≠ .stiv rc) ∧ (∃ rc, Instr.stiv 1 = .stiv rc) ∧
    (∃ rc, Instr.stpd 1 = .stpd rc) ∧ ∃ rc, Instr.stto 1 = .stto rc :=
  ⟨fun _ h => (by cases h), ⟨1, rfl⟩, ⟨1, rfl⟩, ⟨1, rfl⟩⟩

theorem witness_OldStyleReachesLowRegisters : WellFormed (.cif 7 7) = true ∧ oldStyle (.cif 7 7) = true ∧
    oldStyle (.psha 0) = false ∧ ∃ t, exec (.cif 7 7) base = .next t :=
  ⟨by decide, by decide, by decide, _, rfl⟩

theorem witness_OnlyNamedRegistersChange : (∃ t, exec (.add 1 2 3) base = .next t) ∧ (2 : Reg) ∉ xTargets (.add 1 2 3) ∧
    (0 : Reg) ∉ fTargets (.add 1 2 3) := ⟨⟨_, rfl⟩, by decide, by decide⟩

theorem witness_OnlyStoringInstructionsChangeMemory : (∃ t, exec (.lw 1 0 0x7FFC) base = .next t) ∧
    storesMemory (.lw 1 0 0x7FFC) = false := ⟨next_of (by decide), by decide⟩

theorem witness_PcStaysAligned : (base.setPc 0x1002).Running ∧ (base.setPc 0x1002).pc.toNat % 4 ≠ 0 ∧
    base.pc.toNat % 4 = 0 ∧ (∃ t, exec (.b 0xFFFF) base = .next t) ∧ (∀ ra, Instr.b 0xFFFF ≠ .jr ra) ∧
    (∃ t, step (holding 0x2400FFFF) = .next t) ∧
    ∀ ra, decode ((holding 0x2400FFFF).wordAt (holding 0x2400FFFF).pc) ≠ .ok (.jr ra) :=
  ⟨⟨rfl, rfl⟩, by decide, by decide, next_of (by decide), fun _ h => (by cases h), step_next_of (by decide), by decide⟩

end Sys2Proof.Tests
end

section
/-! Proofs about the state of 10_state.md: what every step keeps, which instructions change a system register, which
registers an instruction names. A statement about all instructions goes by cases on `ExecShape`, everything a next
state can be. -/

namespace Sys2Proof.Machine

/-! ## The fields after the three draws of a block instruction (48_memory_block.md R340) -/

section DrawNamed

variable (s : State) (ra rb rc : Reg)

@[simp] theorem State.drawNamed_iena : (s.drawNamed ra rb rc).iena = s.iena := by simp [State.drawNamed]
@[simp] theorem State.drawNamed_usp : (s.drawNamed ra rb rc).usp = s.usp := by simp [State.drawNamed]
@[simp] theorem State.drawNamed_ivec : (s.drawNamed ra rb rc).ivec = s.ivec := by simp [State.drawNamed]
@[simp] theorem State.drawNamed_pdir : (s.drawNamed ra rb rc).pdir = s.pdir := by simp [State.drawNamed]
@[simp] theorem State.drawNamed_pg : (s.drawNamed ra rb rc).pg = s.pg := by simp [State.drawNamed]
@[simp] theorem State.drawNamed_tout : (s.drawNamed ra rb rc).tout = s.tout := by simp [State.drawNamed]
@[simp] theorem State.drawNamed_vadr : (s.drawNamed ra rb rc).vadr = s.vadr := by simp [State.drawNamed]
@[simp] theorem State.drawNamed_memsz : (s.drawNamed ra rb rc).memsz = s.memsz := by simp [State.drawNamed]
@[simp] theorem State.drawNamed_mem : (s.drawNamed ra rb rc).mem = s.mem := by simp [State.drawNamed]
@[simp] theorem State.drawNamed_consoleIn : (s.drawNamed ra rb rc).consoleIn = s.consoleIn := by
  simp [State.drawNamed]
@[simp] theorem State.drawNamed_consoleOut : (s.drawNamed ra rb rc).consoleOut = s.consoleOut := by
  simp [State.drawNamed]
@[simp] theorem State.drawNamed_halted : (s.drawNamed ra rb rc).halted = s.halted := by simp [State.drawNamed]
@[simp] theorem State.drawNamed_params : (s.drawNamed ra rb rc).params = s.params := by simp [State.drawNamed]
@[simp] theorem State.drawNamed_slot_zero : (s.drawNamed ra rb rc).x[0] = s.x[0] := by simp [State.drawNamed]
@[simp] theorem State.drawNamed_readF (q : Reg) : (s.drawNamed ra rb rc).readF q = s.readF q := by
  simp [State.drawNamed]

end DrawNamed

/-! ## Registers other than the destination -/

theorem State.setX_readX_of_ne (s : State) {i r : Reg} (v : Word) (h : i ≠ r) : (s.setX i v).readX r = s.readX r := by
  simp [h.symm]

theorem State.drawX_readX_of_ne (s : State) {i r : Reg} (h : i ≠ r) : (s.drawX i).readX r = s.readX r := by
  simp [h.symm]

theorem State.drawNamed_readX_of_notMem (s : State) {ra rb rc q : Reg} (h : q ∉ [ra, rb, rc]) :
    (s.drawNamed ra rb rc).readX q = s.readX q := by
  have hne : ∀ r ∈ [ra, rb, rc], r ≠ q := fun r hr => ne_of_mem_of_not_mem hr h
  rw [State.drawNamed, State.drawX_readX_of_ne _ (hne rc (by simp)), State.drawX_readX_of_ne _ (hne rb (by simp)),
    State.drawX_readX_of_ne _ (hne ra (by simp))]

theorem State.setF_readF_of_ne (s : State) {i r : Reg} (v : Long) (h : i ≠ r) : (s.setF i v).readF r = s.readF r := by
  simp [h.symm]

/-! ## Valid states -/

/-- Validity looks at memory, MEMSZ and the slot of R0 alone. -/
theorem State.Valid.congr {s t : State} (h : s.Valid) (hmem : t.mem = s.mem) (hsize : t.memsz = s.memsz)
    (hzero : t.x[0] = s.x[0]) : t.Valid where
  wf := hmem ▸ h.wf
  range := by rw [hmem, hsize]; exact h.range
  zero := hzero.trans h.zero
  size := hsize ▸ h.size

/-- A store that R80 allows lists no byte at or beyond MEMSZ. -/
theorem State.Valid.setMem_writeBytes {s : State} (h : s.Valid) {d : Word} {bs : List Byte}
    (ok : s.Storable d bs.length) : (s.setMem (Memory.writeBytes s.mem d bs)).Valid where
  wf := Memory.writeBytes_wf s.mem d bs h.wf
  range c hc := by
    rcases Memory.mem_writeBytes hc with ⟨k, hk, e⟩ | hc
    · rw [e]
      exact ok.1 k hk
    · exact h.range c hc
  zero := h.zero
  size := h.size

theorem exec_keeps_valid {i : Instr} {s t : State} (hs : s.Valid) (h : exec i s = .next t) : t.Valid := by
  cases exec_next h
  case store ok => exact (hs.setMem_writeBytes ok).congr rfl rfl rfl
  case push ok => exact (hs.setMem_writeBytes ok).congr (by simp) (by simp) (by simp)
  case block ok => exact (hs.setMem_writeBytes ok).congr (by simp) (by simp) (by simp)
  all_goals exact hs.congr (by simp) (by simp) (by simp)

/-- Settles O53: the next state of a step is that of the instruction fetched, and no instruction leaves the valid
states. -/
theorem stepKeepsValid : Obligations.StepKeepsValid := by
  intro s t hs h
  obtain ⟨_, _, i, _, hexec⟩ := step_next h
  exact exec_keeps_valid hs hexec

/-! ## The system registers -/

/-- Settles O55: the shapes of a next state that touch a system register, the console or `halted` name their
instruction; the other shapes touch none of them. -/
theorem systemStateChangesOnlyByItsInstructions : Obligations.SystemStateChangesOnlyByItsInstructions := by
  intro i s t h
  cases exec_next h
  case cli rc hi | susp rc hi | stiv rc hi | stpd rc hi | stpg rc hi _ | stto rc hi _ | bin rc _ _ hi _ |
      bout rc hi => subst hi; simp
  case sti hi _ | halt hi => subst hi; simp
  all_goals simp

/-! ## The registers an instruction names -/

theorem exec_readX_of_notMem {i : Instr} {s t : State} (h : exec i s = .next t) {q : Reg} (hq : q ∉ xTargets i) :
    t.readX q = s.readX q := by
  have hne : ∀ {r}, r ∈ xTargets i → r ≠ q := fun hr => ne_of_mem_of_not_mem hr hq
  cases exec_next h
  case writeX hr => exact s.setX_readX_of_ne _ (hne hr)
  case drawX hr => exact s.drawX_readX_of_ne (hne hr)
  case cli hi => subst hi; exact s.setX_readX_of_ne _ (hne (.head _))
  case bin hi _ => subst hi; exact State.setX_readX_of_ne _ _ (hne (.head _))
  case push hsp _ => exact State.setX_readX_of_ne _ _ (hne hsp)
  case popX hr hsp => exact (State.setX_readX_of_ne _ _ (hne hr)).trans (s.setX_readX_of_ne _ (hne hsp))
  case popF _ hsp => exact s.setX_readX_of_ne _ (hne hsp)
  case block hx _ => exact State.drawNamed_readX_of_notMem _ (hx ▸ hq)
  all_goals rfl

theorem exec_readF_of_notMem {i : Instr} {s t : State} (h : exec i s = .next t) {q : Reg} (hq : q ∉ fTargets i) :
    t.readF q = s.readF q := by
  have hne : ∀ {r}, r ∈ fTargets i → r ≠ q := fun hr => ne_of_mem_of_not_mem hr hq
  cases exec_next h
  case writeF hr => exact s.setF_readF_of_ne _ (hne hr)
  case writeNan hr => exact s.setF_readF_of_ne _ (hne hr)
  case popF hr _ => exact (State.setF_readF_of_ne _ _ (hne hr)).trans (s.setX_readF _ _ _)
  all_goals simp

/-- Settles O58. -/
theorem onlyNamedRegistersChange : Obligations.OnlyNamedRegistersChange :=
  fun _ _ t h => ⟨fun _ => exec_readX_of_notMem h, fun _ => exec_readF_of_notMem h, t.readX_zero⟩

/-- The destinations of an old-style instruction are 3-bit fields (10_state.md R34, R36). The remaining instructions
are those without a destination, and the new-style ones, whose opcode is below the old-style map. -/
theorem targets_lt_eight {i : Instr} (hw : WellFormed i = true) (ho : oldStyle i = true) :
    ∀ r ∈ xTargets i ++ fTargets i, r.val < 8 := by
  cases i
  case addf | subf | mulf | divf | eqf | nef | ltf | gtf | lef | gef | pow | fmod | fabs | log | logt | exp | flor |
      ceil | sin | cos | tan | asin | acos | atan | sqrt | cif | cuf | cfi | cfu | cli | lusp | bin | lvad | lmsz |
      mcpy | mset =>
    simp_all [xTargets, fTargets, WellFormed, Reg.reach3]
  case idle | sti | susp | iret | bout | trap | stiv | stpd | stpg | stto | halt | mcmp | mchr =>
    exact List.forall_mem_nil _
  all_goals cases ho

/-- Settles O57: registers 8 to 15 are no destination of the instruction. -/
theorem oldStyleReachesLowRegisters : Obligations.OldStyleReachesLowRegisters := by
  intro i s t hw ho h q hq
  have hmem : q ∉ xTargets i ++ fTargets i := fun hm => absurd (targets_lt_eight hw ho q hm) (by omega)
  rw [List.mem_append, not_or] at hmem
  exact ⟨exec_readX_of_notMem h hmem.1, exec_readF_of_notMem h hmem.2⟩

/-! ## The state after reset, and PG -/

/-- Settles O10: the check on PG comes before the fetch. -/
theorem pgNonzeroStopsStep : Obligations.PgNonzeroStopsStep := by
  intro s hh hp
  simp [step, hh, hp, refuse]

/-- Settles O51. -/
theorem resetValues : Obligations.ResetValues := by
  refine ⟨rfl, rfl, rfl, rfl, rfl, fun r => ⟨?_, ?_⟩, rfl, rfl, rfl, rfl, rfl, rfl⟩
  · simp [State.readX, State.reset]
  · simp [State.readF, State.reset]

/-- Settles O52. -/
theorem resetIsValid : Obligations.ResetIsValid := by
  refine ⟨⟨Memory.reset_wf, fun c hc => ?_, rfl, by decide⟩, rfl, rfl, rfl⟩
  exact absurd hc List.not_mem_nil

end Sys2Proof.Machine
end

section
/-! IVEC, PDIR and TO are inert (10_state.md R43, R44, R46): a run from a state with another value in one of them is
compared with the run from the state itself, operation by operation and then instruction by instruction. -/

namespace Sys2Proof.Machine

/-- The system registers that no rule reads. -/
inductive WriteOnlyReg where
  | ivec
  | pdir
  | tout

/-- `w <- v` for a write-only register `w`. -/
def State.setWriteOnly (w : WriteOnlyReg) (v : Word) (s : State) : State :=
  match w with
  | .ivec => s.setIvec v
  | .pdir => s.setPdir v
  | .tout => s.setTout v

/-- The one instruction that writes it (R319, R320, R322). -/
def WriteOnlyReg.writer : WriteOnlyReg → Reg → Instr
  | .ivec => .stiv
  | .pdir => .stpd
  | .tout => .stto

section WriteOnly

variable {s : State} {w : WriteOnlyReg} {v : Word}

/-! ## What the operations read is as before -/

@[simp] theorem State.setWriteOnly_readX (q : Reg) : (s.setWriteOnly w v).readX q = s.readX q := by cases w <;> rfl
@[simp] theorem State.setWriteOnly_readF (q : Reg) : (s.setWriteOnly w v).readF q = s.readF q := by cases w <;> rfl
@[simp] theorem State.setWriteOnly_iena : (s.setWriteOnly w v).iena = s.iena := by cases w <;> rfl
@[simp] theorem State.setWriteOnly_usp : (s.setWriteOnly w v).usp = s.usp := by cases w <;> rfl
@[simp] theorem State.setWriteOnly_vadr : (s.setWriteOnly w v).vadr = s.vadr := by cases w <;> rfl
@[simp] theorem State.setWriteOnly_memsz : (s.setWriteOnly w v).memsz = s.memsz := by cases w <;> rfl
@[simp] theorem State.setWriteOnly_mem : (s.setWriteOnly w v).mem = s.mem := by cases w <;> rfl
@[simp] theorem State.setWriteOnly_consoleIn : (s.setWriteOnly w v).consoleIn = s.consoleIn := by cases w <;> rfl
@[simp] theorem State.setWriteOnly_consoleOut : (s.setWriteOnly w v).consoleOut = s.consoleOut := by cases w <;> rfl
@[simp] theorem State.setWriteOnly_params : (s.setWriteOnly w v).params = s.params := by cases w <;> rfl
@[simp] theorem State.setWriteOnly_draws : (s.setWriteOnly w v).draws = s.draws := by cases w <;> rfl
@[simp] theorem State.setWriteOnly_fp : (s.setWriteOnly w v).fp = s.fp := by cases w <;> rfl
@[simp] theorem State.setWriteOnly_pcSrc : (s.setWriteOnly w v).pcSrc = s.pcSrc := by cases w <;> rfl
@[simp] theorem State.setWriteOnly_pushAddr : (s.setWriteOnly w v).pushAddr = s.pushAddr := by cases w <;> rfl
@[simp] theorem State.setWriteOnly_popAddr : (s.setWriteOnly w v).popAddr = s.popAddr := by cases w <;> rfl
@[simp] theorem State.setWriteOnly_mayRead : (s.setWriteOnly w v).mayRead = s.mayRead := by cases w <;> rfl
@[simp] theorem State.setWriteOnly_mayStore : (s.setWriteOnly w v).mayStore = s.mayStore := by cases w <;> rfl
@[simp] theorem State.setWriteOnly_effAddr (b : Reg) (imm : Half) :
    (s.setWriteOnly w v).effAddr b imm = s.effAddr b imm := by cases w <;> rfl
@[simp] theorem State.setWriteOnly_load (a : Word) (n : Nat) : (s.setWriteOnly w v).load a n = s.load a n := by
  cases w <;> rfl

/-! ## The updates commute with it -/

@[simp] theorem State.setWriteOnly_setX (q : Reg) (u : Word) :
    (s.setWriteOnly w v).setX q u = (s.setX q u).setWriteOnly w v := by
  by_cases hq : q = 0
  · simp [hq]
  · simp only [State.setX, if_neg hq]
    cases w <;> rfl
@[simp] theorem State.setWriteOnly_setF (q : Reg) (u : Long) :
    (s.setWriteOnly w v).setF q u = (s.setF q u).setWriteOnly w v := by cases w <;> rfl
@[simp] theorem State.setWriteOnly_setPc (a : Word) :
    (s.setWriteOnly w v).setPc a = (s.setPc a).setWriteOnly w v := by cases w <;> rfl
@[simp] theorem State.setWriteOnly_setIena (b : BitVec 1) :
    (s.setWriteOnly w v).setIena b = (s.setIena b).setWriteOnly w v := by cases w <;> rfl
@[simp] theorem State.setWriteOnly_setUsp (u : Word) :
    (s.setWriteOnly w v).setUsp u = (s.setUsp u).setWriteOnly w v := by cases w <;> rfl
@[simp] theorem State.setWriteOnly_setPg (u : Word) :
    (s.setWriteOnly w v).setPg u = (s.setPg u).setWriteOnly w v := by cases w <;> rfl
@[simp] theorem State.setWriteOnly_setMem (m : Memory) :
    (s.setWriteOnly w v).setMem m = (s.setMem m).setWriteOnly w v := by cases w <;> rfl
@[simp] theorem State.setWriteOnly_setConsoleIn (c : ConsoleIn) :
    (s.setWriteOnly w v).setConsoleIn c = (s.setConsoleIn c).setWriteOnly w v := by cases w <;> rfl
@[simp] theorem State.setWriteOnly_setConsoleOut (bs : List Byte) :
    (s.setWriteOnly w v).setConsoleOut bs = (s.setConsoleOut bs).setWriteOnly w v := by cases w <;> rfl
@[simp] theorem State.setWriteOnly_setHalted :
    (s.setWriteOnly w v).setHalted = s.setHalted.setWriteOnly w v := by cases w <;> rfl
@[simp] theorem State.setWriteOnly_bumpDraws :
    (s.setWriteOnly w v).bumpDraws = s.bumpDraws.setWriteOnly w v := by cases w <;> rfl
@[simp] theorem State.setWriteOnly_advance :
    (s.setWriteOnly w v).advance = s.advance.setWriteOnly w v := by cases w <;> rfl
@[simp] theorem State.setWriteOnly_drawX (q : Reg) :
    (s.setWriteOnly w v).drawX q = (s.drawX q).setWriteOnly w v := by simp [State.drawX]
@[simp] theorem State.setWriteOnly_drawNamed (ra rb rc : Reg) :
    (s.setWriteOnly w v).drawNamed ra rb rc = (s.drawNamed ra rb rc).setWriteOnly w v := by
  simp [State.drawNamed]

/-! ## The shared operations answer the same, with the register replaced -/

theorem State.toNext_setWriteOnly {s' : State} (h : s' = s.setWriteOnly w v) :
    s'.toNext = mapNext (State.setWriteOnly w v) s.toNext := by
  simp [h, State.toNext, mapNext]

theorem State.writeX_setWriteOnly {s' : State} {q : Reg} {u' u : Word} (h : s' = s.setWriteOnly w v) (hu : u' = u) :
    s'.writeX q u' = mapNext (State.setWriteOnly w v) (s.writeX q u) :=
  State.toNext_setWriteOnly (by simp [h, hu])

theorem State.writeF_setWriteOnly {s' : State} {q : Reg} {u' u : Long} (h : s' = s.setWriteOnly w v) (hu : u' = u) :
    s'.writeF q u' = mapNext (State.setWriteOnly w v) (s.writeF q u) :=
  State.toNext_setWriteOnly (by simp [h, hu])

theorem State.writeArith_setWriteOnly {u' u : UndefinedResult} {q : Reg} {r' r : Except ArithKind Word}
    (hu : u' = u) (hr : r' = r) :
    (s.setWriteOnly w v).writeArith u' q r' = mapNext (State.setWriteOnly w v) (s.writeArith u q r) := by
  subst hu hr
  cases r' with
  | ok x => exact State.writeX_setWriteOnly rfl rfl
  | error k =>
    cases u' with
    | fault => rfl
    | anyValue => exact State.toNext_setWriteOnly (by simp)

theorem State.writeFp_setWriteOnly {q : Reg} {r' r : Option Long} (hr : r' = r) :
    (s.setWriteOnly w v).writeFp q r' = mapNext (State.setWriteOnly w v) (s.writeFp q r) := by
  subst hr
  cases r' with
  | some x => exact State.writeF_setWriteOnly rfl rfl
  | none => exact State.toNext_setWriteOnly (by simp)

theorem State.writeConverted_setWriteOnly {q : Reg} {r' r : Option Word} (hr : r' = r) :
    (s.setWriteOnly w v).writeConverted q r' = mapNext (State.setWriteOnly w v) (s.writeConverted q r) := by
  subst hr
  cases r' with
  | some x => exact State.writeX_setWriteOnly rfl rfl
  | none => rfl

theorem State.branch_setWriteOnly {c' c : Bool} {imm : Half} (hc : c' = c) :
    (s.setWriteOnly w v).branch c' imm = mapNext (State.setWriteOnly w v) (s.branch c imm) := by
  subst hc
  cases c' with
  | true => simp [State.branch, mapNext]
  | false => exact State.toNext_setWriteOnly rfl

theorem controlWrite_setWriteOnly {c' c : ControlWrites} {m : String} {t' t : State} (hc : c' = c)
    (ht : t' = t.setWriteOnly w v) :
    controlWrite c' m t' = mapNext (State.setWriteOnly w v) (controlWrite c m t) := by
  subst hc
  cases c' with
  | refuse => rfl
  | record => exact State.toNext_setWriteOnly ht

theorem State.loadThen_setWriteOnly {a' a : Word} {n : Nat} {k' k : Nat → Out} (ha : a' = a)
    (hk : ∀ x, k' x = mapNext (State.setWriteOnly w v) (k x)) :
    (s.setWriteOnly w v).loadThen a' n k' = mapNext (State.setWriteOnly w v) (s.loadThen a n k) := by
  subst ha
  rw [State.loadThen, State.loadThen, State.setWriteOnly_load]
  cases s.load a' n with
  | ok x => exact hk x
  | error r => rfl

theorem State.store_setWriteOnly (a : Word) (n x : Nat) :
    (s.setWriteOnly w v).store a n x = (s.store a n x).map (State.setWriteOnly w v) := by
  have halign : (s.setWriteOnly w v).alignedData a n = s.alignedData a n := by cases w <;> rfl
  simp only [State.store, halign, State.setWriteOnly_mayStore, State.setWriteOnly_mem, State.setWriteOnly_setMem]
  split
  · split <;> rfl
  · rfl

theorem State.storeThen_setWriteOnly {a' a : Word} {n x' x : Nat} {k' k : State → Out} (ha : a' = a) (hx : x' = x)
    (hk : ∀ t : State, k' (t.setWriteOnly w v) = mapNext (State.setWriteOnly w v) (k t)) :
    (s.setWriteOnly w v).storeThen a' n x' k' = mapNext (State.setWriteOnly w v) (s.storeThen a n x k) := by
  subst ha hx
  rw [State.storeThen, State.storeThen, State.store_setWriteOnly]
  cases s.store a' n x' with
  | ok t => exact hk t
  | error r => rfl

theorem State.stackSlot_setWriteOnly {m : String} {a' a : Word} {k' k : Out} (ha : a' = a)
    (hk : k' = mapNext (State.setWriteOnly w v) k) :
    (s.setWriteOnly w v).stackSlot m a' k' = mapNext (State.setWriteOnly w v) (s.stackSlot m a k) := by
  subst ha hk
  simp only [State.stackSlot, State.setWriteOnly_params, State.setWriteOnly_readX]
  split
  · rfl
  · split <;> rfl

theorem State.blockStore_setWriteOnly {ra rb rc : Reg} {d : Word} {bs : List Byte} :
    (s.setWriteOnly w v).blockStore ra rb rc d bs =
      mapNext (State.setWriteOnly w v) (s.blockStore ra rb rc d bs) :=
  State.toNext_setWriteOnly (by simp)

theorem execBin_setWriteOnly (rc : Reg) :
    execBin rc (s.setWriteOnly w v) = mapNext (State.setWriteOnly w v) (execBin rc s) := by
  simp only [execBin, State.setWriteOnly_consoleIn]
  split
  · exact State.writeX_setWriteOnly rfl rfl
  · exact State.writeX_setWriteOnly (by simp) rfl

theorem execMcpy_setWriteOnly (ra rb rc : Reg) :
    execMcpy ra rb rc (s.setWriteOnly w v) = mapNext (State.setWriteOnly w v) (execMcpy ra rb rc s) := by
  simp only [execMcpy, State.setWriteOnly_readX, State.setWriteOnly_mayRead, State.setWriteOnly_mayStore,
    State.setWriteOnly_mem]
  split
  · rfl
  · split
    · rfl
    · split
      · rfl
      · exact State.blockStore_setWriteOnly

theorem execMset_setWriteOnly (ra rb rc : Reg) :
    execMset ra rb rc (s.setWriteOnly w v) = mapNext (State.setWriteOnly w v) (execMset ra rb rc s) := by
  simp only [execMset, State.setWriteOnly_readX, State.setWriteOnly_mayStore]
  split
  · rfl
  · exact State.blockStore_setWriteOnly

/-! ## The instructions -/

/-- An instruction that does not write the register passes another value in it through. -/
theorem exec_setWriteOnly {i : Instr} (hi : ∀ rc, i ≠ w.writer rc) :
    exec i (s.setWriteOnly w v) = mapNext (State.setWriteOnly w v) (exec i s) := by
  cases i
  case add | addi | addiu | sub | subi | subiu | mul | muli | muliu | and | or | xor | not | eq | ne | lt |
      ltu | gt | gtu | le | leu | ge | geu | li | liu | lih | lusp | lvad | lmsz =>
    exact State.writeX_setWriteOnly rfl (by simp)
  case div | divi | diviu | mod | modi | modiu | shl | shli | slr | slri | sar | sari =>
    exact State.writeArith_setWriteOnly (by simp) (by simp)
  case addf | subf | mulf | divf | flor | ceil | sqrt | fmod =>
    exact State.writeFp_setWriteOnly (by simp)
  case eqf | nef | ltf | gtf | lef | gef | pow | fabs | log | logt | exp | sin | cos | tan | asin | acos |
      atan | cif | cuf =>
    exact State.writeF_setWriteOnly rfl (by simp)
  case cfi | cfu => exact State.writeConverted_setWriteOnly (by simp)
  case call | ret | poph | popb | popa | pshh | pshb | psha | idle | iret | trap | mcmp | mchr => rfl
  case b imm => exact State.branch_setWriteOnly (c := true) (imm := imm) rfl
  case be | bne | bnez | blt | bgt => exact State.branch_setWriteOnly (by simp)
  case j | jr | halt => simp [exec, execJ, execJr, execHalt, mapNext]
  case lw | lb | lh =>
    exact State.loadThen_setWriteOnly (by simp) fun x => State.writeX_setWriteOnly rfl (by simp)
  case lf => exact State.loadThen_setWriteOnly (by simp) fun x => State.writeF_setWriteOnly rfl rfl
  case sw | sh | sb | sf =>
    exact State.storeThen_setWriteOnly (by simp) (by simp) fun t => State.toNext_setWriteOnly rfl
  case popw =>
    exact State.stackSlot_setWriteOnly (by simp) <|
      State.loadThen_setWriteOnly (by simp) fun x => State.writeX_setWriteOnly (by simp) rfl
  case popf =>
    exact State.stackSlot_setWriteOnly (by simp) <|
      State.loadThen_setWriteOnly (by simp) fun x => State.writeF_setWriteOnly (by simp) rfl
  case pshw | pshf =>
    exact State.stackSlot_setWriteOnly (by simp) <|
      State.storeThen_setWriteOnly (by simp) (by simp) fun t => State.writeX_setWriteOnly rfl (by simp)
  case sti | stpg => exact controlWrite_setWriteOnly (by simp) (by simp)
  case nop | cli | susp | bout => exact State.toNext_setWriteOnly (by simp)
  case bin rc => exact execBin_setWriteOnly rc
  case mcpy ra rb rc => exact execMcpy_setWriteOnly ra rb rc
  case mset ra rb rc => exact execMset_setWriteOnly ra rb rc
  case stiv rc =>
    cases w with
    | ivec => exact absurd rfl (hi rc)
    | pdir | tout => rfl
  case stpd rc =>
    cases w with
    | pdir => exact absurd rfl (hi rc)
    | ivec | tout => rfl
  case stto rc =>
    cases w with
    | tout => exact absurd rfl (hi rc)
    | ivec | pdir => exact controlWrite_setWriteOnly rfl rfl

/-- The register's writer overwrites the other value. -/
theorem exec_writer_setWriteOnly (rc : Reg) : exec (w.writer rc) (s.setWriteOnly w v) = exec (w.writer rc) s := by
  cases w <;> rfl

end WriteOnly

/-- Settles O56: another value in one of the three registers passes through every instruction but its writer, which
overwrites it. -/
theorem writeOnlyRegistersAreInert : Obligations.WriteOnlyRegistersAreInert := by
  intro i s v
  refine ⟨exec_setWriteOnly (w := .ivec), ?_, exec_setWriteOnly (w := .pdir), ?_, exec_setWriteOnly (w := .tout),
    ?_⟩
  · rintro ⟨rc, rfl⟩
    exact exec_writer_setWriteOnly (w := .ivec) rc
  · rintro ⟨rc, rfl⟩
    exact exec_writer_setWriteOnly (w := .pdir) rc
  · rintro ⟨rc, rfl⟩
    exact exec_writer_setWriteOnly (w := .tout) rc

end Sys2Proof.Machine
end

section
/-! Proofs about memory (20_memory.md): which instructions change it, where the pc can point, how an access stops, and
what a load reads after a store. -/

namespace Sys2Proof.Machine

/-! ## Which instructions write memory (R74) -/

/-- The shapes of a next state that write memory are those of a storing instruction. -/
theorem exec_mem_of_not_storesMemory {i : Instr} {s t : State} (h : exec i s = .next t)
    (hi : storesMemory i = false) : t.mem = s.mem := by
  cases exec_next h
  case store hs _ | push hs _ _ | block hs _ _ => cases hs.symm.trans hi
  all_goals simp

/-- Settles O59. -/
theorem onlyStoringInstructionsChangeMemory : Obligations.OnlyStoringInstructionsChangeMemory :=
  fun _ _ _ h hi a => congrArg (Memory.read · a) (exec_mem_of_not_storesMemory h hi)

/-! ## The word at an address (R71, R72) -/

theorem toNat_append_eq {m n : Nat} (x : BitVec m) (y : BitVec n) : (x ++ y).toNat = x.toNat * 2 ^ n + y.toNat := by
  rw [BitVec.toNat_append, ← Nat.shiftLeft_add_eq_or_of_lt y.isLt, Nat.shiftLeft_eq]

/-- One more low byte: its place is below the value of the bytes after it (R71). -/
theorem ofNat_leValue_cons (n : Nat) (b : Byte) (bs : List Byte) :
    BitVec.ofNat (n + 8) (leValue (b :: bs)) = BitVec.ofNat n (leValue bs) ++ b := by
  apply BitVec.eq_of_toNat_eq
  have hb := b.isLt
  have hrest : (b.toNat + 256 * leValue bs) / 2 ^ 8 = leValue bs := by omega
  rw [toNat_append_eq, BitVec.toNat_ofNat, BitVec.toNat_ofNat, leValue, Nat.pow_add, Nat.mul_comm (2 ^ n), Nat.mod_mul,
    hrest]
  omega

theorem State.wordAt_eq (s : State) (a : Word) :
    s.wordAt a = BitVec.ofNat 32 (leValue (Memory.readBytes s.mem a 4)) := by
  have hbytes : Memory.readBytes s.mem a 4 = [s.byteFrom a 0, s.byteFrom a 1, s.byteFrom a 2, s.byteFrom a 3] := by
    simp [Memory.readBytes, State.byteFrom, ← wrapAddr_succ]
  have hlast : BitVec.ofNat 8 (leValue [s.byteFrom a 3]) = s.byteFrom a 3 := by simp [leValue]
  rw [hbytes, ofNat_leValue_cons 24, ofNat_leValue_cons 16, ofNat_leValue_cons 8, hlast]
  rfl

theorem State.decodeBytes_readBytes (s : State) (a : Word) :
    decodeBytes (Memory.readBytes s.mem a 4) = decode (s.wordAt a) := by
  rw [s.wordAt_eq]
  rfl

/-! ## Where the pc can point (R77) -/

theorem toNat_add_mod_four {a b : Word} (ha : a.toNat % 4 = 0) (hb : b.toNat % 4 = 0) : (a + b).toNat % 4 = 0 := by
  rw [BitVec.toNat_add]
  omega

theorem biasWord_mod_four (p : PcBias) : (biasWord p).toNat % 4 = 0 := by
  cases p <;> rfl

/-- An offset counts words (R108). -/
theorem branchOffset_mod_four (imm : Half) : (branchOffset imm).toNat % 4 = 0 := by
  rw [branchOffset, wrap32, BitVec.toNat_ofInt]
  omega

/-- A jump target ends in two zero bits (R207). -/
theorem append_zeros_mod_four (v : BitVec 30) : (v ++ 0#2).toNat % 4 = 0 := by
  rw [toNat_append_eq]
  exact Nat.mul_mod_left v.toNat 4

theorem State.pcSrc_mod_four {s : State} (h : s.pc.toNat % 4 = 0) : s.pcSrc.toNat % 4 = 0 :=
  toNat_add_mod_four h (biasWord_mod_four s.params.pcBias)

@[simp] theorem State.drawNamed_pc (s : State) (ra rb rc : Reg) : (s.drawNamed ra rb rc).pc = s.pc := by
  simp [State.drawNamed]

/-- Every instruction but JR goes on, branches by words, or jumps to a word; HALT stays. -/
theorem exec_keeps_pc_aligned {i : Instr} {s t : State} (hs : s.pc.toNat % 4 = 0) (h : exec i s = .next t)
    (hi : ∀ ra, i ≠ .jr ra) : t.pc.toNat % 4 = 0 := by
  cases exec_next h
  case branch imm => exact toNat_add_mod_four (State.pcSrc_mod_four hs) (branchOffset_mod_four imm)
  case jump => exact append_zeros_mod_four _
  case jumpReg ra e => exact absurd e (hi ra)
  case halt => exact hs
  all_goals
    rw [State.advance_pc]
    exact toNat_add_mod_four (by simpa using hs) rfl

/-- Settles O60: the fetch checks alignment first, and a step that goes on runs the instruction that the word at the pc
decodes to. -/
theorem pcStaysAligned : Obligations.PcStaysAligned := by
  refine ⟨fun s ⟨hhalt, hpg⟩ hpc => ?_, fun _ _ _ => exec_keeps_pc_aligned, fun s t h hjr => ?_,
    fun s ra => ⟨_, rfl, rfl⟩⟩
  · have hfetch : s.fetch = .error (.misaligned s.pc 4 .fetch) := if_neg hpc
    simp [step, hhalt, hpg, hfetch, raise]
  · obtain ⟨_, ⟨halign, _⟩, i, hdec, hexec⟩ := step_next h
    rw [s.decodeBytes_readBytes] at hdec
    exact exec_keeps_pc_aligned halign hexec fun ra e => hjr ra (e ▸ hdec)

/-! ## How an access stops (R76, R80, R90) -/

/-- An instruction that raises what its one access `e` raises stops in the two ways of that access. -/
theorem accessStops_of_access {α : Type} {e : Except Fault α} {s : State} {i : Instr} {a : Word} {n : Nat}
    {k : Access} {allowed answered : Prop} (hraise : ∀ r, e = .error r → exec i s = .fault r)
    (hcases : (s.AlignedFor a n ∧ allowed ∧ answered) ∨
      (s.AlignedFor a n ∧ ¬ allowed ∧ e = .error (.accessFault a n k)) ∨
      (¬ s.AlignedFor a n ∧ e = .error (.misaligned a n k))) : AccessStops s i a n k allowed := by
  rcases hcases with ⟨halign, hok, _⟩ | ⟨halign, _, he⟩ | ⟨hmis, he⟩
  · exact ⟨fun hmis => absurd halign hmis, fun _ hbad => absurd hok hbad⟩
  · exact ⟨fun hmis => absurd halign hmis, fun _ _ => hraise _ he⟩
  · exact ⟨fun _ => hraise _ he, fun halign => absurd halign hmis⟩

theorem accessStops_of_loadThen {s : State} {i : Instr} {a : Word} {n : Nat} {k : Nat → Out}
    (h : exec i s = s.loadThen a n k) : AccessStops s i a n .load (s.InMemory a n) :=
  accessStops_of_access (fun r he => by rw [h, State.loadThen, he]; rfl) (s.load_cases a n)

theorem accessStops_of_storeThen {s : State} {i : Instr} {a : Word} {n v : Nat} {k : State → Out}
    (h : exec i s = s.storeThen a n v k) : AccessStops s i a n .store (s.Storable a n) :=
  accessStops_of_access (fun r he => by rw [h, State.storeThen, he]; rfl) (s.store_cases a n v)

/-- A single byte is never misaligned. -/
theorem State.alignedFor_one (s : State) (a : Word) : s.AlignedFor a 1 :=
  .inr (Nat.mod_one a.toNat)

/-- Settles O25: each of the eight instructions is its one access and what follows it. -/
theorem loadsAndStoresStop : Obligations.LoadsAndStoresStop := by
  intro s ra rb fa imm a
  exact ⟨accessStops_of_loadThen rfl, accessStops_of_loadThen rfl, accessStops_of_loadThen rfl,
    accessStops_of_loadThen rfl, accessStops_of_storeThen rfl, accessStops_of_storeThen rfl,
    accessStops_of_storeThen rfl, accessStops_of_storeThen rfl, s.alignedFor_one a⟩

/-! ## A load after a store (R71, R73) -/

/-- The low bytes of a stored value read back. -/
theorem Memory.readBytes_writeBytes_leBytes {m : Memory} (hm : Memory.wf m) (a : Word) (v : Nat) {j n : Nat}
    (hj : j ≤ n) (hn : n ≤ 2 ^ 32) : Memory.readBytes (Memory.writeBytes m a (leBytes n v)) a j = leBytes j v := by
  apply List.ext_getElem (by simp)
  intro k hk _
  have hk' : k < (leBytes n v).length := by
    rw [Memory.length_readBytes] at hk
    rw [length_leBytes]
    omega
  rw [Memory.getElem_readBytes, Memory.read_writeBytes m a _ k hm (by simpa using hn) hk', getElem_leBytes,
    getElem_leBytes]

theorem State.InMemory.mono {s : State} {a : Word} {j n : Nat} (h : s.InMemory a n) (hj : j ≤ n) : s.InMemory a j :=
  fun k hk => h k (Nat.lt_of_lt_of_le hk hj)

/-- A load, at the base and offset of a store that went on, of no more bytes: it goes on with the low bytes of the value
stored. -/
theorem State.loadThen_stored {s t : State} {rb : Reg} {imm : Half} {j n v : Nat} (hm : Memory.wf s.mem)
    (h : s.storeThen (s.effAddr rb imm) n v State.toNext = .next t) (ha : s.AlignedFor (s.effAddr rb imm) j)
    (hj : j ≤ n) (hn : n ≤ 2 ^ 32) (k : Nat → Out) : t.loadThen (t.effAddr rb imm) j k = k (v % 256 ^ j) := by
  obtain ⟨_, ok, h⟩ := State.storeThen_next h
  cases h
  have hload := Memory.readBytes_writeBytes_leBytes hm (s.effAddr rb imm) v hj hn
  refine (State.loadThen_eq k ?aligned ?inside).trans (congrArg k ?value)
  case aligned => exact ha
  case inside => exact ok.1.mono hj
  case value => exact (congrArg leValue hload).trans (leValue_leBytes j v)

theorem State.storeThen_toNext_params {s t : State} {a : Word} {n v : Nat}
    (h : s.storeThen a n v State.toNext = .next t) : t.params = s.params := by
  obtain ⟨_, _, h⟩ := State.storeThen_next h
  cases h
  rfl

/-- The low bytes of a pattern as a narrower pattern. -/
theorem ofNat_mod_eq_extractLsb' {w : Nat} (v : BitVec w) (j : Nat) :
    BitVec.ofNat (8 * j) (v.toNat % 256 ^ j) = v.extractLsb' 0 (8 * j) := by
  apply BitVec.eq_of_toNat_eq
  simp [Nat.pow_mul]

theorem extend_sign (n : Nat) (v : BitVec n) : extend .sign n v = v.signExtend 32 := rfl

theorem extend_zero (n : Nat) (v : BitVec n) : extend .zero n v = v.setWidth 32 := by
  rw [extend, zext32, wrap32, BitVec.ofInt_natCast, BitVec.ofNat_toNat]

theorem State.exists_writeX (s : State) (r : Reg) (v : Word) :
    ∃ u, s.writeX r v = .next u ∧ u.readX r = if r = 0 then 0#32 else v := by
  refine ⟨_, rfl, ?_⟩
  by_cases hr : r = 0 <;> simp [hr]

section StoreThenLoad

variable {s t : State} {ra rb : Reg} {imm : Half}

theorem exec_lw_of_sw (hm : Memory.wf s.mem) (h : exec (.sw ra rb imm) s = .next t) (rd : Reg) :
    exec (.lw rd rb imm) t = t.writeX rd (s.readX ra) := by
  refine (State.loadThen_stored hm h (State.storeThen_next h).1 le_rfl (by decide) _).trans ?_
  rw [ofNat_mod_eq_extractLsb' _ 4, BitVec.extractLsb'_eq_self]

theorem exec_lf_of_sf {fa : Reg} (hm : Memory.wf s.mem) (h : exec (.sf rb fa imm) s = .next t) (fd : Reg) :
    exec (.lf fd rb imm) t = t.writeF fd (s.readF fa) := by
  refine (State.loadThen_stored hm h (State.storeThen_next h).1 le_rfl (by decide) _).trans ?_
  rw [ofNat_mod_eq_extractLsb' _ 8, BitVec.extractLsb'_eq_self]

theorem exec_lh_of_sh (hm : Memory.wf s.mem) (h : exec (.sh ra rb imm) s = .next t) (rd : Reg) :
    exec (.lh rd rb imm) t =
      t.writeX rd (extend s.params.narrowLoadExt 16 ((s.readX ra).extractLsb' 0 16)) := by
  refine (State.loadThen_stored hm h (State.storeThen_next h).1 le_rfl (by decide) _).trans ?_
  rw [ofNat_mod_eq_extractLsb' _ 2, BitVec.extractLsb'_eq_self, State.storeThen_toNext_params h]

theorem exec_lb_of_sb (hm : Memory.wf s.mem) (h : exec (.sb ra rb imm) s = .next t) (rd : Reg) :
    exec (.lb rd rb imm) t =
      t.writeX rd (extend s.params.narrowLoadExt 8 ((s.readX ra).extractLsb' 0 8)) := by
  refine (State.loadThen_stored hm h (State.storeThen_next h).1 le_rfl (by decide) _).trans ?_
  rw [ofNat_mod_eq_extractLsb' _ 1, BitVec.extractLsb'_eq_self, State.storeThen_toNext_params h]

/-- The byte at a word's address is the word's low byte (R71). -/
theorem exec_lb_of_sw (hm : Memory.wf s.mem) (h : exec (.sw ra rb imm) s = .next t) (rd : Reg) :
    exec (.lb rd rb imm) t =
      t.writeX rd (extend s.params.narrowLoadExt 8 ((s.readX ra).extractLsb' 0 8)) := by
  refine (State.loadThen_stored hm h (s.alignedFor_one _) (by decide) (by decide) _).trans ?_
  rw [ofNat_mod_eq_extractLsb' _ 1, State.storeThen_toNext_params h]

end StoreThenLoad

/-- Settles O27: each load after a store writes the value stored, extended as NARROW_LOAD_EXT says. -/
theorem storeThenLoadReturnsValue : Obligations.StoreThenLoadReturnsValue := by
  intro s t ra rb rd fa fd imm hm v low half
  have hlow : extend s.params.narrowLoadExt 8 (v.extractLsb' 0 8) = low := by
    dsimp only [low]
    cases s.params.narrowLoadExt
    · exact extend_sign 8 _
    · exact extend_zero 8 _
  have hhalf : extend s.params.narrowLoadExt 16 (v.extractLsb' 0 16) = half := by
    dsimp only [half]
    cases s.params.narrowLoadExt
    · exact extend_sign 16 _
    · exact extend_zero 16 _
  refine ⟨fun h => ⟨?_, ?_⟩, fun h => ?_, fun h => ?_, fun h => ?_⟩
  · exact exec_lw_of_sw hm h rd ▸ t.exists_writeX rd v
  · exact exec_lb_of_sw hm h rd ▸ hlow ▸ t.exists_writeX rd _
  · exact exec_lh_of_sh hm h rd ▸ hhalf ▸ t.exists_writeX rd _
  · exact exec_lb_of_sb hm h rd ▸ hlow ▸ t.exists_writeX rd _
  · exact ⟨_, exec_lf_of_sf hm h fd, by simp⟩

end Sys2Proof.Machine
end

section
/-! Proofs about the fields of an instruction word (30_encoding.md R101 to R107): what the encoder places in each field,
and what encoding the fields of a word again keeps of the word. -/

namespace Sys2Proof.Machine

/-! ## The bits of a word under a mask -/

/-- A mask of the bits from `k` on and the `l` low bits keeps the two ends of a word. -/
theorem toNat_and_ends (w : Word) {k l : Nat} (hl : l ≤ k) :
    (w &&& (BitVec.allOnes 32 <<< k ||| BitVec.ofNat 32 (2 ^ l - 1))).toNat =
      2 ^ k * (w.toNat / 2 ^ k) + w.toNat % 2 ^ l := by
  have hlow : w.toNat % 2 ^ l < 2 ^ k :=
    Nat.lt_of_lt_of_le (Nat.mod_lt _ (Nat.two_pow_pos l)) (Nat.pow_le_pow_right (by decide) hl)
  apply Nat.eq_of_testBit_eq
  intro j
  rw [Nat.testBit_two_pow_mul_add _ hlow, BitVec.testBit_toNat]
  simp only [BitVec.getLsbD_and, BitVec.getLsbD_or, BitVec.getLsbD_shiftLeft, BitVec.getLsbD_allOnes,
    BitVec.getLsbD_ofNat, Nat.testBit_two_pow_sub_one, Nat.testBit_div_two_pow, Nat.testBit_mod_two_pow,
    BitVec.testBit_toNat]
  by_cases hj : j < 32
  · by_cases hk : j < k
    · simp [hk, hj, Bool.and_comm]
    · have : j - k < 32 := by omega
      simp [hk, hj, this, Nat.sub_add_cancel (Nat.not_lt.mp hk)]
  · have hz : w.getLsbD j = false := BitVec.getLsbD_of_ge w j (Nat.not_lt.mp hj)
    by_cases hk : j < k
    · simp [hk, hz]
    · simp [hk, hz, Nat.sub_add_cancel (Nat.not_lt.mp hk)]

/-- The number made of the two ends of a word is the word under the mask of these ends. -/
theorem ofNat_eq_and_ends {w m : Word} {n : Nat} (k l : Nat)
    (hm : m = BitVec.allOnes 32 <<< k ||| BitVec.ofNat 32 (2 ^ l - 1)) (hl : l ≤ k)
    (hn : n = 2 ^ k * (w.toNat / 2 ^ k) + w.toNat % 2 ^ l) : BitVec.ofNat 32 n = w &&& m := by
  rw [hm, hn, ← toNat_and_ends w hl, BitVec.ofNat_toNat, BitVec.setWidth_eq]

/-! ## The fields the encoder places (30_encoding.md R101 to R106) -/

theorem encodeR_fields {op : Nat} (hop : op < 2 ^ 8) (ra rb rc : Reg) :
    bits (encodeR op ra rb rc) 24 8 = op ∧ reg4 (encodeR op ra rb rc) 20 = ra ∧
      reg4 (encodeR op ra rb rc) 16 = rb ∧ reg4 (encodeR op ra rb rc) 12 = rc := by
  simp only [reg4, bits, encodeR, Fin.ext_iff, BitVec.toNat_ofNat]
  omega

theorem encodeI_fields {op : Nat} (hop : op < 2 ^ 8) (ra rb : Reg) (imm : Half) :
    bits (encodeI op ra rb imm) 24 8 = op ∧ reg4 (encodeI op ra rb imm) 20 = ra ∧
      reg4 (encodeI op ra rb imm) 16 = rb ∧ imm16 (encodeI op ra rb imm) = imm := by
  simp only [reg4, bits, imm16, encodeI, Fin.ext_iff, ← BitVec.toNat_inj, BitVec.toNat_ofNat]
  omega

theorem encodeJ_fields {op : Nat} (hop : op < 2 ^ 8) (imm : BitVec 24) :
    bits (encodeJ op imm) 24 8 = op ∧ imm24 (encodeJ op imm) = imm := by
  simp only [bits, imm24, encodeJ, ← BitVec.toNat_inj, BitVec.toNat_ofNat]
  omega

theorem encodeF_fields {op a b c} (hop : op < 2 ^ 7) (ha : Reg.reach3 a = true) (hb : Reg.reach3 b = true)
    (hc : Reg.reach3 c = true) :
    bits (encodeF op a b c) 25 7 = op ∧ reg3 (encodeF op a b c) 22 = a ∧ reg3 (encodeF op a b c) 19 = b ∧
      reg3 (encodeF op a b c) 16 = c := by
  simp only [Reg.reach3, decide_eq_true_eq] at ha hb hc
  simp only [reg3, bits, encodeF, Fin.ext_iff, BitVec.toNat_ofNat]
  omega

theorem encodeS_fields {group sub rc} (hg : group < 2 ^ 3) (hs : sub < 2 ^ 3) (hc : Reg.reach3 rc = true) :
    bits (encodeS group sub rc) 25 7 = 0x7F ∧ bits (encodeS group sub rc) 22 3 = group ∧
      bits (encodeS group sub rc) 19 3 = sub ∧ reg3 (encodeS group sub rc) 16 = rc := by
  simp only [Reg.reach3, decide_eq_true_eq] at hc
  simp only [reg3, bits, encodeS, Fin.ext_iff, BitVec.toNat_ofNat]
  omega

theorem encodeM_fields {op ra rb rc} (hop : op < 2 ^ 3) (ha : Reg.reach3 ra = true) (hb : Reg.reach3 rb = true)
    (hc : Reg.reach3 rc = true) :
    bits (encodeM op ra rb rc) 25 7 = 0x7F ∧ bits (encodeM op ra rb rc) 22 3 = 5 ∧
      bits (encodeM op ra rb rc) 19 3 = op ∧ reg3 (encodeM op ra rb rc) 16 = ra ∧
      reg3 (encodeM op ra rb rc) 13 = rb ∧ reg3 (encodeM op ra rb rc) 10 = rc := by
  simp only [Reg.reach3, decide_eq_true_eq] at ha hb hc
  simp only [reg3, bits, encodeM, Fin.ext_iff, BitVec.toNat_ofNat]
  omega

/-! ## Encoding the fields read from a word: the unread bits are cleared (R107) -/

theorem encodeR_read {w : Word} {op : Nat} (hop : bits w 24 8 = op) :
    encodeR op (reg4 w 20) (reg4 w 16) (reg4 w 12) = w &&& 0xFFFFF000#32 ∧
      encodeR op (reg4 w 20) (reg4 w 16) 0 = w &&& 0xFFFF0000#32 ∧
      encodeR op (reg4 w 20) 0 0 = w &&& 0xFFF00000#32 ∧ encodeR op 0 0 0 = w &&& 0xFF000000#32 := by
  have hw := w.isLt
  simp only [bits] at hop
  refine ⟨ofNat_eq_and_ends 12 0 rfl (by decide) ?_, ofNat_eq_and_ends 16 0 rfl (by decide) ?_,
    ofNat_eq_and_ends 20 0 rfl (by decide) ?_, ofNat_eq_and_ends 24 0 rfl (by decide) ?_⟩ <;>
  · simp only [reg4, bits, Fin.val_zero]
    omega

theorem encodeI_read {w : Word} {op : Nat} (hop : bits w 24 8 = op) :
    encodeI op (reg4 w 20) (reg4 w 16) (imm16 w) = w &&& 0xFFFFFFFF#32 ∧
      encodeI op (reg4 w 20) 0 (imm16 w) = w &&& 0xFFF0FFFF#32 ∧
      encodeI op 0 0 (imm16 w) = w &&& 0xFF00FFFF#32 := by
  have hw := w.isLt
  simp only [bits] at hop
  refine ⟨ofNat_eq_and_ends 16 16 rfl (by decide) ?_, ofNat_eq_and_ends 20 16 rfl (by decide) ?_,
    ofNat_eq_and_ends 24 16 rfl (by decide) ?_⟩ <;>
  · simp only [reg4, imm16, bits, Fin.val_zero, BitVec.toNat_ofNat]
    omega

theorem encodeJ_read {w : Word} {op : Nat} (hop : bits w 24 8 = op) :
    encodeJ op (imm24 w) = w &&& 0xFFFFFFFF#32 := by
  have hw := w.isLt
  simp only [bits] at hop
  apply ofNat_eq_and_ends 24 24 rfl (by decide)
  simp only [imm24, bits, BitVec.toNat_ofNat]
  omega

theorem encodeF_read {w : Word} {op : Nat} (hop : bits w 25 7 = op) :
    encodeF op (reg3 w 22) (reg3 w 19) (reg3 w 16) = w &&& 0xFFFF0000#32 ∧
      encodeF op (reg3 w 22) (reg3 w 19) 0 = w &&& 0xFFF80000#32 ∧ encodeF op 0 0 0 = w &&& 0xFE000000#32 := by
  have hw := w.isLt
  simp only [bits] at hop
  refine ⟨ofNat_eq_and_ends 16 0 rfl (by decide) ?_, ofNat_eq_and_ends 19 0 rfl (by decide) ?_,
    ofNat_eq_and_ends 25 0 rfl (by decide) ?_⟩ <;>
  · simp only [reg3, bits, Fin.val_zero]
    omega

theorem encodeS_read {w : Word} {group sub : Nat} (htop : bits w 25 7 = 0x7F) (hg : bits w 22 3 = group) :
    encodeS group 0 0 = w &&& 0xFFC00000#32 ∧
      (bits w 19 3 = sub → encodeS group sub (reg3 w 16) = w &&& 0xFFFF0000#32 ∧
        encodeS group sub 0 = w &&& 0xFFF80000#32) := by
  have hw := w.isLt
  simp only [bits] at htop hg ⊢
  refine ⟨ofNat_eq_and_ends 22 0 rfl (by decide) ?_, fun hs =>
    ⟨ofNat_eq_and_ends 16 0 rfl (by decide) ?_, ofNat_eq_and_ends 19 0 rfl (by decide) ?_⟩⟩ <;>
  · simp only [reg3, bits, Fin.val_zero]
    omega

theorem encodeM_read {w : Word} {op : Nat} (htop : bits w 25 7 = 0x7F) (hg : bits w 22 3 = 5)
    (hop : bits w 19 3 = op) :
    encodeM op (reg3 w 16) (reg3 w 13) (reg3 w 10) = w &&& 0xFFFFFC00#32 ∧
      encodeM op (reg3 w 16) 0 0 = w &&& 0xFFFF0000#32 ∧ encodeM op 0 0 0 = w &&& 0xFFF80000#32 := by
  have hw := w.isLt
  simp only [bits] at htop hg hop
  refine ⟨ofNat_eq_and_ends 10 0 rfl (by decide) ?_, ofNat_eq_and_ends 16 0 rfl (by decide) ?_,
    ofNat_eq_and_ends 19 0 rfl (by decide) ?_⟩ <;>
  · simp only [reg3, bits, Fin.val_zero]
    omega

end Sys2Proof.Machine
end

section
/-! Proofs about the decoder and the encoder (30_encoding.md R111 to R115): what the decoder answers, which words of the
opcode table it answers, and that it reads back what the encoder wrote. -/

namespace Sys2Proof.Machine

/-! ## What the decoder answers (30_encoding.md R115) -/

/-- The word is the row's, and the instruction is what the row's fields of the word say. -/
structure ReadFrom (w : Word) (i : Instr) : Prop where
  covers : (opcodeRow i).covers w = true
  wellFormed : WellFormed i = true
  core : i.core = i
  encode : encode i = w &&& (opcodeRow i).used

@[simp] theorem reach3_reg3 (w : Word) (lo : Nat) : (reg3 w lo).reach3 = true :=
  decide_eq_true (Nat.mod_lt _ (by decide))

theorem decodeNew_readFrom {w : Word} {i : Instr} (h : decodeNew (bits w 24 8) w = some i) : ReadFrom w i := by
  generalize hop : bits w 24 8 = op at h
  obtain ⟨rrr, rr, r, fixed⟩ := encodeR_read hop
  obtain ⟨rri, ri, imm⟩ := encodeI_read hop
  have jump := encodeJ_read hop
  unfold decodeNew at h
  split at h
  case h_66 => cases h
  all_goals
    cases h
    exact ⟨beq_iff_eq.mpr fixed.symm, rfl, rfl, by simp only [encode, opcodeRow, rrr, rr, r, fixed, rri, ri, imm, jump]⟩

theorem decodeFloat_readFrom {w : Word} {i : Instr} (h : decodeFloat (bits w 25 7) w = some i) : ReadFrom w i := by
  generalize hop : bits w 25 7 = op at h
  obtain ⟨fff, ff, fixed⟩ := encodeF_read hop
  unfold decodeFloat at h
  split at h
  case h_30 => cases h
  all_goals
    cases h
    exact ⟨beq_iff_eq.mpr fixed.symm, by simp [WellFormed], rfl, by simp only [encode, opcodeRow, fff, ff]⟩

theorem decodeBlock_readFrom {w : Word} {i : Instr} (htop : bits w 25 7 = 0x7F) (hg : bits w 22 3 = 5)
    (h : decodeBlock w = .ok i) : ReadFrom w i := by
  unfold decodeBlock at h
  generalize hop : bits w 19 3 = op at h
  obtain ⟨rrr, r, fixed⟩ := encodeM_read htop hg hop
  split at h
  case h_6 => cases h
  all_goals
    cases h
    exact ⟨beq_iff_eq.mpr fixed.symm, by simp [WellFormed], rfl, by simp only [encode, opcodeRow, rrr, r]⟩

theorem decodeSystem_readFrom {w : Word} {i : Instr} (htop : bits w 25 7 = 0x7F) (h : decodeSystem w = .ok i) :
    ReadFrom w i := by
  unfold decodeSystem at h
  generalize hg : bits w 22 3 = group, hs : bits w 19 3 = sub at h
  obtain ⟨byGroup, bySub⟩ := encodeS_read (sub := sub) htop hg
  obtain ⟨r, fixed⟩ := bySub hs
  split at h
  case h_15 | h_16 => cases h
  case h_1 | h_6 | h_9 =>
    cases h
    exact ⟨beq_iff_eq.mpr byGroup.symm, rfl, rfl, byGroup⟩
  all_goals
    cases h
    exact ⟨beq_iff_eq.mpr fixed.symm, by simp [WellFormed], rfl, by simp only [encode, opcodeRow, r, fixed]⟩

theorem decode_readFrom {w : Word} {i : Instr} (h : decode w = .ok i) : ReadFrom w i := by
  unfold decode at h
  split at h
  case isTrue hw =>
    cases h
    subst hw
    exact ⟨rfl, rfl, rfl, rfl⟩
  split at h
  case isTrue => cases h
  split at h
  case h_1 hnew =>
    cases h
    exact decodeNew_readFrom hnew
  split at h
  case h_1 hfloat =>
    cases h
    exact decodeFloat_readFrom hfloat
  split at h
  case isFalse => cases h
  case isTrue htop =>
    split at h
    case isTrue hg => exact decodeBlock_readFrom htop hg h
    split at h
    case isTrue hw =>
      cases h
      subst hw
      exact ⟨rfl, rfl, rfl, rfl⟩
    case isFalse => exact decodeSystem_readFrom htop h

/-! ## Which map decodes a word -/

theorem decodeNew_range {op : Nat} {w : Word} {i : Instr} (h : decodeNew op w = some i) : 0 < op ∧ op < 0x42 := by
  unfold decodeNew at h
  split at h
  case h_66 => cases h
  all_goals decide

theorem le_of_decodeFloat {op : Nat} {w : Word} {i : Instr} (h : decodeFloat op w = some i) : 0x33 ≤ op := by
  unfold decodeFloat at h
  split at h
  case h_30 => cases h
  all_goals decide

theorem decode_of_new {w : Word} {i : Instr} (h : decodeNew (bits w 24 8) w = some i) : decode w = .ok i := by
  obtain ⟨hpos, _⟩ := decodeNew_range h
  have hw : w ≠ 0#32 := by
    rintro rfl
    exact absurd hpos (by decide)
  simp [decode, hw, hpos.ne', h]

/-- The new-style map ends below the old-style one (R111, R112), so an old-style word passes the tests before it. -/
theorem not_newStyle_of_le {w : Word} (h : 0x33 ≤ bits w 25 7) :
    w ≠ 0#32 ∧ bits w 24 8 ≠ 0 ∧ decodeNew (bits w 24 8) w = none := by
  have hop : 0x66 ≤ bits w 24 8 := by
    simp only [bits] at h ⊢
    omega
  refine ⟨?_, by omega, Option.eq_none_iff_forall_ne_some.mpr fun i hi => ?_⟩
  · rintro rfl
    exact absurd h (by decide)
  · have := decodeNew_range hi
    omega

theorem decode_of_float {w : Word} {i : Instr} (h : decodeFloat (bits w 25 7) w = some i) : decode w = .ok i := by
  obtain ⟨hw, hop, hnew⟩ := not_newStyle_of_le (le_of_decodeFloat h)
  simp [decode, hw, hop, hnew, h]

theorem decode_of_top {w : Word} (htop : bits w 25 7 = 0x7F) :
    decode w = if bits w 22 3 = 5 then decodeBlock w else if w = 0xFFFFFFFF#32 then .ok .halt else decodeSystem w := by
  obtain ⟨hw, hop, hnew⟩ := not_newStyle_of_le (w := w) (by omega)
  have hfloat : decodeFloat 0x7F w = none := rfl
  simp [decode, hw, hop, hnew, hfloat, htop]

theorem decode_of_block {w : Word} (htop : bits w 25 7 = 0x7F) (hg : bits w 22 3 = 5) : decode w = decodeBlock w := by
  rw [decode_of_top htop, if_pos hg]

theorem decode_of_system {w : Word} {i : Instr} (htop : bits w 25 7 = 0x7F) (h : decodeSystem w = .ok i) :
    decode w = .ok i := by
  have hg : bits w 22 3 ≠ 5 := by
    intro hg
    simp [decodeSystem, hg] at h
  have hw : w ≠ 0xFFFFFFFF#32 := by
    rintro rfl
    cases h
  rw [decode_of_top htop, if_neg hg, if_neg hw, h]


/-! ## A word of a row decodes to an instruction of the row -/

theorem OpcodeRow.and_mask_of_covers {r : OpcodeRow} {w : Word} (h : r.covers w = true) : w &&& r.mask = r.pattern :=
  beq_iff_eq.mp h

/-- A field inside the mask stands in the word as in the pattern. -/
theorem bits_of_and_mask {w mask pattern : Word} (h : w &&& mask = pattern) (lo width : Nat)
    (hm : bits mask lo width = 2 ^ width - 1) : bits w lo width = bits pattern lo width := by
  apply Nat.eq_of_testBit_eq
  intro j
  have hj := congrArg (Nat.testBit · j) hm
  simp only [bits, Nat.testBit_mod_two_pow, Nat.testBit_div_two_pow, Nat.testBit_two_pow_sub_one] at hj ⊢
  by_cases hw : j < width
  · have hmask : mask.toNat.testBit (j + lo) = true := by simpa [hw] using hj
    rw [← h, BitVec.toNat_and, Nat.testBit_and, hmask, Bool.and_true]
  · simp [hw]

/-- A row that fixes all 32 bits has one word. -/
theorem OpcodeRow.eq_pattern_of_covers {r : OpcodeRow} {w : Word} (h : r.covers w = true)
    (hm : r.mask = BitVec.allOnes 32) : w = r.pattern := by
  have hand := r.and_mask_of_covers h
  rwa [hm, BitVec.and_allOnes] at hand

theorem decode_of_covers {w : Word} {i : Instr} (h : (opcodeRow i).covers w = true) :
    ∃ j, decode w = .ok j ∧ opcodeRow j = opcodeRow i.core := by
  have field := bits_of_and_mask (OpcodeRow.and_mask_of_covers h)
  cases i <;> simp only [opcodeRow] at h field
  case nop | halt =>
    cases OpcodeRow.eq_pattern_of_covers h rfl
    exact ⟨_, rfl, rfl⟩
  case addf | subf | mulf | divf | eqf | nef | ltf | gtf | lef | gef | pow | fabs | log | logt | exp | flor | ceil |
      sin | cos | tan | asin | acos | atan | sqrt | fmod | cif | cuf | cfi | cfu =>
    exact ⟨_, decode_of_float (by rw [field 25 7 rfl]; rfl), by rfl⟩
  case lmsz | mcpy | mcmp | mchr | mset =>
    exact ⟨_, by rw [decode_of_block (field 25 7 rfl) (field 22 3 rfl), decodeBlock, field 19 3 rfl]; rfl, by rfl⟩
  case idle | iret | trap =>
    exact ⟨_, decode_of_system (field 25 7 rfl) (by rw [decodeSystem, field 22 3 rfl]; rfl), by rfl⟩
  case cli | sti | lusp | susp | bin | bout | stiv | stpd | stpg | stto | lvad =>
    exact ⟨_, decode_of_system (field 25 7 rfl) (by rw [decodeSystem, field 22 3 rfl, field 19 3 rfl]; rfl), by rfl⟩
  all_goals exact ⟨_, decode_of_new (by rw [field 24 8 rfl]; rfl), by rfl⟩

/-! ## A well-formed instruction decodes from its encoding

For each format: the word placed with some fields decodes to what the format's map answers for these fields. -/

theorem decode_encodeR {op : Nat} {ra rb rc : Reg} {i : Instr} (hop : op < 2 ^ 8)
    (h : ∀ w, reg4 w 20 = ra → reg4 w 16 = rb → reg4 w 12 = rc → decodeNew op w = some i) :
    decode (encodeR op ra rb rc) = .ok i := by
  obtain ⟨eop, ea, eb, ec⟩ := encodeR_fields hop ra rb rc
  exact decode_of_new (by rw [eop]; exact h _ ea eb ec)

theorem decode_encodeI {op : Nat} {ra rb : Reg} {imm : Half} {i : Instr} (hop : op < 2 ^ 8)
    (h : ∀ w, reg4 w 20 = ra → reg4 w 16 = rb → imm16 w = imm → decodeNew op w = some i) :
    decode (encodeI op ra rb imm) = .ok i := by
  obtain ⟨eop, ea, eb, eimm⟩ := encodeI_fields hop ra rb imm
  exact decode_of_new (by rw [eop]; exact h _ ea eb eimm)

theorem decode_encodeJ {op : Nat} {imm : BitVec 24} {i : Instr} (hop : op < 2 ^ 8)
    (h : ∀ w, imm24 w = imm → decodeNew op w = some i) : decode (encodeJ op imm) = .ok i := by
  obtain ⟨eop, eimm⟩ := encodeJ_fields hop imm
  exact decode_of_new (by rw [eop]; exact h _ eimm)

theorem decode_encodeF {op : Nat} {a b c : Reg} {i : Instr} (hop : op < 2 ^ 7) (ha : a.reach3 = true)
    (hb : b.reach3 = true) (hc : c.reach3 = true)
    (h : ∀ w, reg3 w 22 = a → reg3 w 19 = b → reg3 w 16 = c → decodeFloat op w = some i) :
    decode (encodeF op a b c) = .ok i := by
  obtain ⟨eop, ea, eb, ec⟩ := encodeF_fields hop ha hb hc
  exact decode_of_float (by rw [eop]; exact h _ ea eb ec)

theorem decode_encodeS {group sub : Nat} {rc : Reg} {i : Instr} (hg : group < 2 ^ 3) (hs : sub < 2 ^ 3)
    (hc : rc.reach3 = true)
    (h : ∀ w, bits w 22 3 = group → bits w 19 3 = sub → reg3 w 16 = rc → decodeSystem w = .ok i) :
    decode (encodeS group sub rc) = .ok i := by
  obtain ⟨etop, eg, es, ec⟩ := encodeS_fields hg hs hc
  exact decode_of_system etop (h _ eg es ec)

theorem decode_encodeM {op : Nat} {ra rb rc : Reg} {i : Instr} (hop : op < 2 ^ 3) (ha : ra.reach3 = true)
    (hb : rb.reach3 = true) (hc : rc.reach3 = true)
    (h : ∀ w, bits w 19 3 = op → reg3 w 16 = ra → reg3 w 13 = rb → reg3 w 10 = rc → decodeBlock w = .ok i) :
    decode (encodeM op ra rb rc) = .ok i := by
  obtain ⟨etop, eg, eop, ea, eb, ec⟩ := encodeM_fields hop ha hb hc
  exact (decode_of_block etop eg).trans (h _ eop ea eb ec)

theorem decode_encode {i : Instr} (hw : WellFormed i = true) : decode (encode i) = .ok i.core := by
  cases i
  case nop | halt | ret | idle | sti | iret | trap => rfl
  case addi | addiu | subi | subiu | muli | muliu | divi | diviu | modi | modiu | shli | slri | sari | be | bne | blt |
      bgt | lw | lh | lb | lf | sw | sh | sb | sf =>
    exact decode_encodeI (by decide) (by rintro w rfl rfl rfl; rfl)
  case li | liu | lih => exact decode_encodeI (by decide) (by rintro w rfl - rfl; rfl)
  case b => exact decode_encodeI (by decide) (by rintro w - - rfl; rfl)
  case bnez => exact decode_encodeI (by decide) (by rintro w rfl hb rfl; rw [Instr.core, ← hb]; rfl)
  case j => exact decode_encodeJ (by decide) (by rintro w rfl; rfl)
  case jr | call | popw | poph | popb | popf | popa | pshw | pshh | pshb | pshf | psha =>
    exact decode_encodeR (by decide) (by rintro w rfl - -; rfl)
  case not => exact decode_encodeR (by decide) (by rintro w rfl rfl -; rfl)
  case addf a b c | subf a b c | mulf a b c | divf a b c | eqf a b c | nef a b c | ltf a b c | gtf a b c | lef a b c |
      gef a b c | pow a b c | fmod a b c =>
    obtain ⟨⟨ha, hb⟩, hc⟩ : (a.reach3 ∧ b.reach3) ∧ c.reach3 := by simpa [WellFormed] using hw
    exact decode_encodeF (by decide) ha hb hc (by rintro w rfl rfl rfl; rfl)
  case fabs a b | log a b | logt a b | exp a b | flor a b | ceil a b | sin a b | cos a b | tan a b | asin a b |
      acos a b | atan a b | sqrt a b | cif a b | cuf a b | cfi a b | cfu a b =>
    obtain ⟨ha, hb⟩ : a.reach3 ∧ b.reach3 := by simpa [WellFormed] using hw
    exact decode_encodeF (by decide) ha hb rfl (by rintro w rfl rfl -; rfl)
  case cli | lusp | susp | bin | bout | stiv | stpd | stpg | stto | lvad =>
    exact decode_encodeS (by decide) (by decide) hw (by rintro w hg hs rfl; rw [decodeSystem, hg, hs]; rfl)
  case lmsz => exact decode_encodeM (by decide) hw rfl rfl (by rintro w hop rfl - -; rw [decodeBlock, hop]; rfl)
  case mcpy a b c | mcmp a b c | mchr a b c | mset a b c =>
    obtain ⟨⟨ha, hb⟩, hc⟩ : (a.reach3 ∧ b.reach3) ∧ c.reach3 := by simpa [WellFormed] using hw
    exact decode_encodeM (by decide) ha hb hc (by rintro w hop rfl rfl rfl; rw [decodeBlock, hop]; rfl)
  all_goals exact decode_encodeR (by decide) (by rintro w rfl rfl rfl; rfl)

end Sys2Proof.Machine
end

section
/-! Proofs of the statements about encoding (30_encoding.md): the round trip, the opcode table, NOP and HALT. -/

namespace Sys2Proof.Machine

/-! ## The round trip (R107, R115) -/

/-- Settles O1. -/
theorem decodeEncodeAgree : Obligations.DecodeEncodeAgree :=
  fun _ => decode_encode

/-- Settles O2: what the decoder reads encodes to the bits of its row, and it is well formed, so O1 applies. -/
theorem decodedInstructionsReencode : Obligations.DecodedInstructionsReencode := by
  intro w i h
  obtain ⟨_, hwf, hcore, hencode⟩ := decode_readFrom h
  exact ⟨hwf, hcore, hencode, (decode_encode hwf).trans (congrArg Except.ok hcore)⟩

/-! ## The rows of the opcode table -/

/-- BNEZ is encoded as the BNE it stands for (R122). -/
theorem encode_core (i : Instr) : encode i.core = encode i := by
  cases i <;> rfl

theorem opcodeRow_core_used (i : Instr) : (opcodeRow i.core).used = (opcodeRow i).used := by
  cases i <;> rfl

/-- Only BNEZ is read as an instruction of another row (R122). -/
theorem opcodeRow_core (i : Instr) :
    opcodeRow i.core = opcodeRow i ∨ (opcodeRow i).mnemonic = "BNEZ" ∧ (opcodeRow i.core).mnemonic = "BNE" := by
  cases i
  case bnez => exact .inr ⟨rfl, rfl⟩
  all_goals exact .inl rfl

/-- The table lists the rows in the order of the constructors. -/
theorem opcodeTable_getElem?_ctorIdx (i : Instr) : opcodeTable[i.ctorIdx]? = some (opcodeRow i) := by
  cases i <;> rfl

theorem opcodeRow_mem_opcodeTable (i : Instr) : opcodeRow i ∈ opcodeTable :=
  List.mem_of_getElem? (opcodeTable_getElem?_ctorIdx i)

/-- The bits that tell a row are bits it uses. -/
theorem used_and_mask_of_mem : ∀ r ∈ opcodeTable, r.used &&& r.mask = r.mask := by
  decide

/-- A word with the used bits of a decoded word is of the same row, so it decodes to an instruction of that row, with
the same encoding. -/
theorem decode_of_and_used {w v : Word} {i : Instr} (h : decode w = .ok i)
    (hv : v &&& (opcodeRow i).used = w &&& (opcodeRow i).used) : decode v = .ok i := by
  obtain ⟨hcovers, hwf, hcore, hencode⟩ := decode_readFrom h
  have hmask : v &&& (opcodeRow i).mask = w &&& (opcodeRow i).mask := by
    rw [← used_and_mask_of_mem _ (opcodeRow_mem_opcodeTable i), ← BitVec.and_assoc, hv, BitVec.and_assoc]
  have hvcovers : (opcodeRow i).covers v = true := by
    rw [OpcodeRow.covers, hmask]
    exact hcovers
  obtain ⟨j, hj, hrow⟩ := decode_of_covers hvcovers
  rw [hcore] at hrow
  obtain ⟨_, hjwf, hjcore, hjencode⟩ := decode_readFrom hj
  have hsame : encode j = encode i := by rw [hjencode, hencode, hrow, hv]
  calc decode v = .ok j.core := by rw [hj, hjcore]
    _ = decode (encode i) := by rw [← decode_encode hjwf, hsame]
    _ = .ok i := by rw [decode_encode hwf, hcore]

theorem encode_and_used {i : Instr} (hw : WellFormed i = true) : encode i = encode i &&& (opcodeRow i).used := by
  have hencode := (decode_readFrom (decode_encode hw)).encode
  rwa [encode_core, opcodeRow_core_used] at hencode

/-- Settles O3. -/
theorem unusedBitsAreIgnored : Obligations.UnusedBitsAreIgnored := by
  refine ⟨fun w v i => decode_of_and_used, fun i hw => ?_, rfl, rfl⟩
  rw [encode_and_used hw, BitVec.and_assoc, BitVec.and_not_self]
  exact BitVec.and_zero

/-- Settles O4. -/
theorem decodeFollowsOpcodeTable : Obligations.DecodeFollowsOpcodeTable := by
  refine ⟨fun w i h => (decode_readFrom h).covers, fun w => ⟨?_, fun hnone => ?_⟩⟩
  · rintro ⟨e, he⟩ r hr
    obtain ⟨i, _, rfl⟩ := List.mem_map.mp hr
    refine Bool.eq_false_iff.mpr fun hcovers => ?_
    obtain ⟨j, hj, _⟩ := decode_of_covers hcovers
    cases hj.symm.trans he
  · cases h : decode w with
    | error e => exact ⟨e, rfl⟩
    | ok i => cases (decode_readFrom h).covers.symm.trans (hnone _ (opcodeRow_mem_opcodeTable i))

theorem mnemonic_mem_of_core {i : Instr} (h : (opcodeRow i.core).mnemonic = "BNE") :
    (opcodeRow i).mnemonic ∈ ["BNE", "BNEZ"] := by
  rcases opcodeRow_core i with hi | ⟨hi, _⟩
  · rw [← hi, h]
    exact .head _
  · rw [hi]
    exact .tail _ (.head _)

/-- Settles O5: the word decodes to one instruction, and that is of either row. -/
theorem opcodeRowsDoNotOverlap : Obligations.OpcodeRowsDoNotOverlap := by
  intro w r hr q hq hrw hqw
  obtain ⟨i, _, rfl⟩ := List.mem_map.mp hr
  obtain ⟨j, _, rfl⟩ := List.mem_map.mp hq
  obtain ⟨a, ha, hai⟩ := decode_of_covers hrw
  obtain ⟨b, hb, hbj⟩ := decode_of_covers hqw
  cases ha.symm.trans hb
  have hcore : opcodeRow i.core = opcodeRow j.core := hai.symm.trans hbj
  rcases opcodeRow_core i, opcodeRow_core j with ⟨hi | ⟨_, hi⟩, hj | ⟨_, hj⟩⟩
  · exact .inl (hi.symm.trans (hcore.trans hj))
  · exact .inr ⟨mnemonic_mem_of_core (hcore ▸ hj), mnemonic_mem_of_core hj⟩
  all_goals exact .inr ⟨mnemonic_mem_of_core hi, mnemonic_mem_of_core (hcore ▸ hi)⟩

/-! ## NOP and HALT (R118, R119) -/

theorem decode_eq_nop_iff (w : Word) : decode w = .ok .nop ↔ w = 0x00000000#32 := by
  refine ⟨fun h => OpcodeRow.eq_pattern_of_covers (decode_readFrom h).covers rfl, ?_⟩
  rintro rfl
  rfl

theorem decode_eq_halt_iff (w : Word) : decode w = .ok .halt ↔ w = 0xFFFFFFFF#32 := by
  refine ⟨fun h => OpcodeRow.eq_pattern_of_covers (decode_readFrom h).covers rfl, ?_⟩
  rintro rfl
  rfl

theorem decode_nop_near_miss {w : Word} (h : w &&& 0xFF000000#32 = 0#32) (hw : w ≠ 0#32) :
    decode w = .error .nopShape := by
  have hop : bits w 24 8 = 0 := bits_of_and_mask h 24 8 rfl
  rw [decode, if_neg hw, if_pos hop]

theorem decode_halt_near_miss {w : Word} (h : w &&& 0xFFF80000#32 = 0xFFF80000#32) (hw : w ≠ 0xFFFFFFFF#32) :
    decode w = .error .haltShape := by
  have htop : bits w 25 7 = 0x7F := bits_of_and_mask h 25 7 rfl
  have hg : bits w 22 3 = 7 := bits_of_and_mask h 22 3 rfl
  have hs : bits w 19 3 = 7 := bits_of_and_mask h 19 3 rfl
  rw [decode_of_top htop, if_neg (by omega), if_neg hw, decodeSystem, hg, hs]
  rfl

/-- A fetched word that does not decode is illegal (R116). -/
theorem step_of_decode_error {s : State} {e : Reject} (hrun : s.Running) (hfetch : s.Fetchable)
    (h : decode (s.wordAt s.pc) = .error e) : step s = .fault (.illegalInstruction (s.wordAt s.pc)) := by
  obtain ⟨hhalt, hpg⟩ := hrun
  rcases s.fetch_cases with ⟨_, hbytes⟩ | ⟨_, hno, _⟩ | ⟨hno, _⟩
  · rw [← s.decodeBytes_readBytes] at h
    simp [step, hhalt, hpg, hbytes, h, s.wordAt_eq, raise]
  · exact absurd hfetch.2 hno
  · exact absurd hfetch.1 hno

/-- Settles O7. -/
theorem nopAndHaltAreWholeWords : Obligations.NopAndHaltAreWholeWords := by
  refine ⟨fun w => ⟨decode_eq_nop_iff w, decode_eq_halt_iff w⟩, rfl, rfl, fun w hmiss => ?_⟩
  have hdec : ∃ e, decode w = .error e := by
    rcases hmiss with ⟨hand, hw⟩ | ⟨hand, hw⟩
    · exact ⟨_, decode_nop_near_miss hand hw⟩
    · exact ⟨_, decode_halt_near_miss hand hw⟩
  refine ⟨hdec, fun s hrun hfetch hword => ?_⟩
  obtain ⟨e, he⟩ := hdec
  subst hword
  exact step_of_decode_error hrun hfetch he

/-- Settles O6. -/
theorem sampleWordsDecode : Obligations.SampleWordsDecode := by
  unfold Obligations.SampleWordsDecode
  decide

end Sys2Proof.Machine
end

section
/-! Proofs of the statements about control (40_control.md): what an instruction that only moves the pc, or only halts,
leaves alone. -/

namespace Sys2Proof.Machine

/-! ## Frames of the updates that touch no register -/

theorem State.sameRegs_setPc (s : State) (a : Word) (xs fs : List Reg) : SameRegs s (s.setPc a) xs fs where
  x q _ := s.setPc_readX a q
  f q _ := s.setPc_readF a q

theorem State.sameSystem_setPc (s : State) (a : Word) : SameSystem s (s.setPc a) :=
  ⟨rfl, rfl, rfl, rfl, rfl, rfl, rfl, rfl⟩

theorem State.sameOutside_setPc (s : State) (a : Word) : SameOutside s (s.setPc a) :=
  ⟨rfl, rfl, rfl, rfl⟩

/-- A write of the pc is a jump: `pc <- a` and nothing else. -/
theorem State.jumpsTo_setPc (s : State) (a : Word) : JumpsTo s (s.setPc a) a where
  only := ⟨s.sameRegs_setPc a [] [], fun _ => rfl, s.sameSystem_setPc a, s.sameOutside_setPc a⟩
  pc := s.setPc_pc a
  draws := s.setPc_draws a

/-- `next` (00_scope.md R12) is the jump to the following instruction. -/
theorem State.jumpsTo_advance (s : State) : JumpsTo s s.advance (s.pc + 4#32) :=
  s.jumpsTo_setPc _

theorem State.sameRegs_setHalted (s : State) (xs fs : List Reg) : SameRegs s s.setHalted xs fs where
  x q _ := s.setHalted_readX q
  f q _ := s.setHalted_readF q

theorem State.sameSystem_setHalted (s : State) : SameSystem s s.setHalted :=
  ⟨rfl, rfl, rfl, rfl, rfl, rfl, rfl, rfl⟩

/-! ## NOP and HALT (R140, 47_system.md R324) -/

theorem exec_nop (s : State) : exec .nop s = .next s.advance := rfl

theorem exec_halt (s : State) : exec .halt s = .next s.setHalted := rfl

/-- A halted machine has no next step (10_state.md R52): this check comes before all others (60_exceptions.md R406). -/
theorem step_of_halted {s : State} (h : s.halted = true) : step s = .fault .halted := by
  rw [step, if_pos h]
  rfl

/-- Settles O11: NOP is `next`, and HALT is `halted <- true`, after which the run state stops the step. -/
theorem nopAndHaltEffects : Obligations.NopAndHaltEffects := by
  intro s
  refine ⟨⟨s.advance, exec_nop s, s.jumpsTo_advance⟩, s.setHalted, exec_halt s, s.setHalted_halted, s.setHalted_pc,
    s.setHalted_params, s.setHalted_draws, s.sameRegs_setHalted [] [], fun a => ?_, s.sameSystem_setHalted,
    s.setHalted_consoleIn, s.setHalted_consoleOut, step_of_halted s.setHalted_halted⟩
  rw [s.setHalted_mem]

end Sys2Proof.Machine
end

section
/-! Proofs of the statements about arithmetic and logic (41_arith_logic.md). An instruction of this family ends in
`State.writeX` or `State.writeArith`; what these two do is said once, so that what is left of each instruction is an
equation between the word it writes and the word the statement names. -/

namespace Sys2Proof.Machine

/-! ## Frames of a register write (10_state.md R32, R38) -/

/-- `x[ra] <- v; next` leaves the rest of the state as it was. -/
theorem State.writesX_setX (s : State) (ra : Reg) (v : Word) : WritesX s (s.setX ra v).advance ra v where
  only :=
    { regs :=
        { x := fun _ hq => s.setX_readX_of_ne v (ne_of_mem_of_not_mem (List.mem_singleton_self ra) hq)
          f := fun _ _ => by simp }
      mem := fun _ => by simp
      system := by constructor <;> simp
      outside := by constructor <;> simp }
  result := by by_cases h : ra = 0 <;> simp [h]
  pc := by simp [NextPc]
  draws := by simp

/-- `x[ra] <- unspecified; next` leaves the rest of the state as it was. -/
theorem State.drawsX_drawX (s : State) (ra : Reg) : DrawsX s (s.drawX ra).advance ra where
  only :=
    { regs :=
        { x := fun _ hq => s.drawX_readX_of_ne (ne_of_mem_of_not_mem (List.mem_singleton_self ra) hq)
          f := fun _ _ => by simp }
      mem := fun _ => by simp
      system := by constructor <;> simp
      outside := by constructor <;> simp }
  zero h := by simp [h]
  pc := by simp [NextPc]
  draws := by simp

/-! ## Instructions that end in a register write -/

/-- The instruction writes `u`, which is the `v` of a statement. -/
theorem exec_writesX {i : Instr} {s : State} {ra : Reg} {u v : Word} (h : exec i s = s.writeX ra u) (huv : u = v) :
    ∃ t, exec i s = .next t ∧ WritesX s t ra v := by
  subst huv
  exact ⟨_, h, s.writesX_setX ra u⟩

theorem readX_of_exec_writeX {i : Instr} {s t : State} {ra : Reg} {v : Word} (h : exec i s = s.writeX ra v)
    (hra : ra ≠ 0) (ht : exec i s = .next t) : t.readX ra = v := by
  rw [State.writeX_next (h.symm.trans ht)]
  simp [hra]

/-- An operation without a result: ArithUndefined or a free value, by the setting (R153, R154). -/
theorem undefined_of_exec_writeArith {i : Instr} {s : State} {u : UndefinedResult} {ra : Reg} {k : ArithKind}
    {r : Except ArithKind Word} (h : exec i s = s.writeArith u ra r) (hr : r = .error k) : Undefined s i u ra k := by
  subst hr
  refine ⟨?_, ?_⟩ <;> rintro rfl
  · exact h
  · exact ⟨_, h, s.drawsX_drawX ra⟩

/-! ## Wrapped results (R9, R10, R151) -/

theorem sext32_eq (n : Nat) (v : BitVec n) : sext32 n v = v.signExtend 32 := extend_sign n v

theorem zext32_eq (n : Nat) (v : BitVec n) : zext32 n v = v.setWidth 32 := extend_zero n v

@[simp] theorem wrap32_toInt (v : Word) : wrap32 v.toInt = v := BitVec.ofInt_toInt

@[simp] theorem wrap32_toNat (v : Word) : wrap32 v.toNat = v := by
  rw [wrap32, BitVec.ofInt_natCast, BitVec.ofNat_toNat, BitVec.setWidth_eq]

/-- Wrapping commutes with the sum, so the reading of the operands as signed or unsigned does not matter. -/
theorem addWrap_eq (a b : Int) : addWrap a b = wrap32 a + wrap32 b := BitVec.ofInt_add a b

theorem subWrap_eq (a b : Int) : subWrap a b = wrap32 a - wrap32 b := by
  simp only [subWrap, wrap32, Int.sub_eq_add_neg, BitVec.ofInt_add, BitVec.ofInt_neg, BitVec.sub_eq_add_neg]

theorem mulWrap_eq (a b : Int) : mulWrap a b = wrap32 a * wrap32 b := BitVec.ofInt_mul a b

/-- Settles O12. -/
theorem addSubMulWrap : Obligations.AddSubMulWrap := by
  intro s ra rb rc imm
  refine ⟨exec_writesX rfl ?add, exec_writesX rfl ?addi, exec_writesX rfl ?addiu, exec_writesX rfl ?sub,
    exec_writesX rfl ?subi, exec_writesX rfl ?subiu, exec_writesX rfl ?mul, exec_writesX rfl ?muli,
    exec_writesX rfl ?muliu⟩
  case add | addi | addiu => simp only [addWrap_eq, wrap32_toInt, wrap32_toNat, sext32_eq, zext32_eq]
  case sub | subi | subiu => simp only [subWrap_eq, wrap32_toInt, wrap32_toNat, sext32_eq, zext32_eq]
  case mul | muli | muliu => simp only [mulWrap_eq, wrap32_toInt, wrap32_toNat, sext32_eq, zext32_eq]

/-- Settles O16: NOT is modelled as the exclusive or with all ones. -/
theorem bitwiseLogic : Obligations.BitwiseLogic := fun _ _ _ _ =>
  ⟨exec_writesX rfl rfl, exec_writesX rfl rfl, exec_writesX rfl rfl, exec_writesX rfl BitVec.xor_allOnes⟩

/-! ## Comparisons (R152) -/

theorem truthWord_decide (p : Prop) [Decidable p] : truthWord (decide p) = if p then 1#32 else 0#32 := by
  simp [truthWord]

theorem truthWord_bne (b c : Word) : truthWord (b != c) = if b ≠ c then 1#32 else 0#32 := by
  simp [truthWord]

/-- The word of the opposite truth value. -/
theorem truthWord_not (c : Bool) : truthWord (!c) = 1#32 - truthWord c := by
  cases c <;> rfl

theorem leSigned_eq_not (b c : Word) : leSigned b c = !ltSigned c b := by
  simp [leSigned, ltSigned, ← decide_not]

theorem leUnsigned_eq_not (b c : Word) : leUnsigned b c = !ltUnsigned c b := by
  simp [leUnsigned, ltUnsigned, ← decide_not]

/-- Bit 31 reverses the signed order against the unsigned one when it differs. -/
theorem signed_unsigned_order_agree_iff (b c : Word) :
    (b.toInt < c.toInt ↔ b.toNat < c.toNat) ↔ b.msb = c.msb := by
  rw [← BitVec.lt_def, ← BitVec.slt_iff_toInt_lt, ← BitVec.ult_iff_lt, ← Bool.eq_iff_iff]
  by_cases h : b.msb = c.msb
  · simp [h, BitVec.slt_eq_ult_of_msb_eq h]
  · simp [h, BitVec.slt_eq_not_ult_of_msb_neq h]

theorem readX_eq_of_exec_eq {i j : Instr} {s t u : State} {ra : Reg} (h : exec i s = exec j s)
    (ht : exec i s = .next t) (hu : exec j s = .next u) : t.readX ra = u.readX ra := by
  cases ht.symm.trans (h.trans hu)
  rfl

/-- An instruction that writes the opposite truth value of what another writes. -/
theorem readX_eq_one_sub {i j : Instr} {s t u : State} {ra : Reg} {c d : Bool}
    (hi : exec i s = s.writeX ra (truthWord c)) (hj : exec j s = s.writeX ra (truthWord d)) (hcd : c = !d)
    (hra : ra ≠ 0) (ht : exec i s = .next t) (hu : exec j s = .next u) : t.readX ra = 1#32 - u.readX ra := by
  rw [readX_of_exec_writeX hi hra ht, readX_of_exec_writeX hj hra hu, hcd, truthWord_not]

/-- Settles O17: the results are the truth words of the relations, and an order is the negation of its converse. -/
theorem comparisonsWriteOneOrZero : Obligations.ComparisonsWriteOneOrZero := by
  refine ⟨fun s ra rb rc => ?results, fun s t u ra rb rc hra => ?relations, signed_unsigned_order_agree_iff⟩
  case results =>
    exact ⟨exec_writesX rfl (truthWord_decide _), exec_writesX rfl (truthWord_bne _ _),
      exec_writesX rfl (truthWord_decide _), exec_writesX rfl (truthWord_decide _),
      exec_writesX rfl (truthWord_decide _), exec_writesX rfl (truthWord_decide _),
      exec_writesX rfl (truthWord_decide _), exec_writesX rfl (truthWord_decide _),
      exec_writesX rfl (truthWord_decide _), exec_writesX rfl (truthWord_decide _)⟩
  case relations =>
    exact ⟨readX_eq_of_exec_eq rfl, readX_eq_of_exec_eq rfl, readX_eq_one_sub rfl rfl (leSigned_eq_not _ _) hra,
      readX_eq_one_sub rfl rfl (leUnsigned_eq_not _ _) hra, readX_eq_one_sub rfl rfl (leSigned_eq_not _ _) hra,
      readX_eq_one_sub rfl rfl (leUnsigned_eq_not _ _) hra, readX_eq_one_sub rfl rfl rfl hra⟩

/-! ## Division (R153) -/

theorem isDivision_truncate (a : Int) {b : Int} (hb : b ≠ 0) : IsDivision .truncate a b (a.tdiv b) (a.tmod b) where
  exact := (Int.mul_tdiv_add_tmod a b).symm
  small := by
    rw [Int.natAbs_tmod]
    exact Nat.mod_lt _ (Int.natAbs_pos.mpr hb)
  sign := by
    have hsign := Int.sign_tmod a b
    split at hsign
    · exact .inl (Int.sign_eq_zero_iff_zero.mp hsign)
    · exact .inr (by rw [← Int.sign_eq_one_iff_pos, hsign, Int.sign_eq_one_iff_pos])

/-- The floored remainder of a positive divisor lies in `[0, b)`, and that of a negative one mirrors it. -/
theorem isDivision_floor (a : Int) {b : Int} (hb : b ≠ 0) : IsDivision .floor a b (a.fdiv b) (a.fmod b) := by
  have hexact := (Int.mul_fdiv_add_fmod a b).symm
  rcases Int.lt_or_gt_of_ne hb with hneg | hpos
  · have hmirror := Int.neg_fmod_neg a b
    have hlow := Int.fmod_nonneg_of_pos (-a) (b := -b) (by omega)
    have hhigh := Int.fmod_lt_of_pos (-a) (b := -b) (by omega)
    exact ⟨hexact, by omega, .inr (by dsimp only; omega)⟩
  · have hlow := Int.fmod_nonneg_of_pos a hpos
    have hhigh := Int.fmod_lt_of_pos a hpos
    exact ⟨hexact, by omega, by dsimp only; omega⟩

theorem isDivision_quotient (c : DivConvention) (a : Int) {b : Int} (hb : b ≠ 0) :
    IsDivision c a b (quotient c a b) (a - b * quotient c a b) := by
  cases c with
  | truncate => exact Int.tmod_def a b ▸ isDivision_truncate a hb
  | floor => exact Int.fmod_def a b ▸ isDivision_floor a hb

theorem divUndefinedKind_zero (a : Word) : divUndefinedKind a 0#32 = some .divByZero := if_pos rfl

theorem divUndefinedKind_overflow : divUndefinedKind 0x80000000#32 0xFFFFFFFF#32 = some .divOverflow := by decide

theorem divUndefinedKind_eq_none {a b : Word} (hb : b ≠ 0#32) (hab : ¬ (a = 0x80000000#32 ∧ b = 0xFFFFFFFF#32)) :
    divUndefinedKind a b = none := by
  rw [divUndefinedKind, if_neg hb, if_neg]
  rintro ⟨ha, hb1⟩
  exact hab ⟨BitVec.eq_of_toInt_eq ha, BitVec.eq_of_toInt_eq hb1⟩

section Results

variable {a b : Word} (c : DivConvention)

theorem sdiv_eq_ok (h : divUndefinedKind a b = none) : sdiv c a b = .ok (wrap32 (quotient c a.toInt b.toInt)) := by
  rw [sdiv, h]

theorem smod_eq_ok (h : divUndefinedKind a b = none) :
    smod c a b = .ok (wrap32 (a.toInt - b.toInt * quotient c a.toInt b.toInt)) := by
  rw [smod, h]

theorem sdiv_eq_error {k : ArithKind} (h : divUndefinedKind a b = some k) : sdiv c a b = .error k := by
  rw [sdiv, h]

theorem smod_eq_error {k : ArithKind} (h : divUndefinedKind a b = some k) : smod c a b = .error k := by
  rw [smod, h]

end Results

/-- A quotient and a remainder instruction on the same operands answer the two results of one division. -/
theorem dividesTo_of_exec {s : State} {quo rem : Instr} {ra : Reg} {a b : Word} {u : UndefinedResult}
    (hquo : exec quo s = s.writeArith u ra (sdiv s.params.divConvention a b))
    (hrem : exec rem s = s.writeArith u ra (smod s.params.divConvention a b)) : DividesTo s quo rem ra a b := by
  intro hb hab
  have hdefined := divUndefinedKind_eq_none hb hab
  rw [sdiv_eq_ok _ hdefined] at hquo
  rw [smod_eq_ok _ hdefined] at hrem
  exact ⟨_, _, isDivision_quotient _ _ fun h => hb (BitVec.eq_of_toInt_eq h),
    exec_writesX hquo rfl, exec_writesX hrem rfl⟩

/-- The two instructions share the undefined cases of their operands. -/
theorem undefined_of_exec_divMod {s : State} {quo rem : Instr} {ra : Reg} {a b : Word} {u : UndefinedResult}
    {k : ArithKind} (hquo : exec quo s = s.writeArith u ra (sdiv s.params.divConvention a b))
    (hrem : exec rem s = s.writeArith u ra (smod s.params.divConvention a b)) (h : divUndefinedKind a b = some k) :
    Undefined s quo u ra k ∧ Undefined s rem u ra k :=
  ⟨undefined_of_exec_writeArith hquo (sdiv_eq_error _ h), undefined_of_exec_writeArith hrem (smod_eq_error _ h)⟩

/-- Settles O13. -/
theorem divModResults : Obligations.DivModResults := by
  intro s ra rb rc imm
  rw [← zext32_eq]
  exact ⟨dividesTo_of_exec rfl rfl, dividesTo_of_exec rfl rfl, dividesTo_of_exec rfl rfl⟩

/-- Settles O14. -/
theorem divModWithoutResult : Obligations.DivModWithoutResult := by
  intro s ra rb rc imm
  refine ⟨fun hc => undefined_of_exec_divMod rfl rfl ?zero, fun himm => ?zeroImm,
    fun hb hc => undefined_of_exec_divMod rfl rfl ?overflow,
    fun hb himm => undefined_of_exec_divMod rfl rfl ?overflowImm⟩
  case zero => rw [hc, divUndefinedKind_zero]
  case zeroImm =>
    subst himm
    have h := divUndefinedKind_zero (s.readX rb)
    exact and_assoc.mp ⟨undefined_of_exec_divMod rfl rfl h, undefined_of_exec_divMod rfl rfl h⟩
  case overflow => rw [hb, hc, divUndefinedKind_overflow]
  case overflowImm =>
    rw [hb, himm]
    exact divUndefinedKind_overflow

/-! ## Shifts (R154) -/

theorem shiftInRange_eq_ok {n : Nat} (h : n ≤ 32) (f : Nat → Word) : shiftInRange n f = .ok (f n) :=
  if_pos ⟨Int.natCast_nonneg n, Int.ofNat_le.mpr h⟩

theorem shiftInRange_eq_error {n : Nat} (h : 32 < n) (f : Nat → Word) : shiftInRange n f = .error .shiftRange :=
  if_neg fun hle => by omega

/-- A register amount may be read as signed (SAR): with bit 31 set it is out of range under both readings. -/
theorem shiftInRange_toInt (c : Word) (f : Nat → Word) : shiftInRange c.toInt f = shiftInRange c.toNat f := by
  cases hmsb : c.msb with
  | false => rw [BitVec.toInt_eq_toNat_of_msb hmsb]
  | true =>
    have hneg : c.toInt < 0 := BitVec.toInt_neg_of_msb_true hmsb
    have hlarge := BitVec.toNat_ge_of_msb_true hmsb
    rw [shiftInRange_eq_error (by omega), shiftInRange, if_neg (by omega)]

theorem zext32_toNat (imm : Half) : (zext32 16 imm).toNat = imm.toNat := by
  rw [zext32_eq, BitVec.toNat_setWidth_of_le (by decide)]

/-- A shift writes its result for an amount of 0 to 32 and has none beyond. -/
theorem shiftsTo_of_exec {i : Instr} {s : State} {ra : Reg} {n : Nat} {f : Nat → Word} {v : Word}
    (h : exec i s = s.writeArith s.params.shiftUndefined ra (shiftInRange n f)) (hv : f n = v) :
    ShiftsTo s i ra n v := by
  refine ⟨fun hn => ?_, fun hn => undefined_of_exec_writeArith h (shiftInRange_eq_error hn f)⟩
  rw [shiftInRange_eq_ok hn] at h
  exact exec_writesX h hv

/-- The floor of a word's signed reading over 2^32 is its sign. -/
theorem toInt_div_two_pow_32 (b : Word) : b.toInt / 2 ^ 32 = if b.msb then -1 else 0 := by
  have hlow := b.le_toInt
  have hhigh := b.toInt_lt
  cases hmsb : b.msb with
  | true =>
    have hneg : b.toInt < 0 := BitVec.toInt_neg_of_msb_true hmsb
    exact Int.ediv_eq_neg_one_of_neg_of_le hneg (by omega)
  | false =>
    have hpos : 0 ≤ b.toInt := BitVec.toInt_nonneg_of_msb_false hmsb
    exact Int.ediv_eq_zero_of_lt hpos (by omega)

theorem wrap32_fdiv_two_pow (a : Word) (n : Nat) : wrap32 (a.toInt.fdiv (2 ^ n)) = BitVec.ofInt 32 (a.toInt / 2 ^ n) := by
  rw [wrap32, Int.fdiv_eq_ediv_of_nonneg _ (by positivity)]

/-- Settles O15. -/
theorem shiftResults : Obligations.ShiftResults := by
  refine ⟨fun s ra rb rc imm => ?shifts, fun b => ⟨?left, ?right, ?arithmetic⟩⟩
  case shifts =>
    have hofNat := BitVec.ofInt_natCast 32
    have hsar : exec (.sar ra rb rc) s = s.writeArith s.params.shiftUndefined ra
        (asr (s.readX rb) (s.readX rc).toNat) := congrArg (s.writeArith _ ra) (shiftInRange_toInt _ _)
    have himm := zext32_toNat imm
    refine ⟨shiftsTo_of_exec rfl (hofNat _), himm ▸ shiftsTo_of_exec rfl (hofNat _),
      shiftsTo_of_exec rfl (hofNat _), himm ▸ shiftsTo_of_exec rfl (hofNat _),
      shiftsTo_of_exec hsar (wrap32_fdiv_two_pow _ _), shiftsTo_of_exec rfl (wrap32_fdiv_two_pow _ _)⟩
  case left =>
    apply BitVec.eq_of_toNat_eq
    rw [BitVec.toNat_ofNat, Nat.mul_mod_left]
    rfl
  case right => rw [Nat.div_eq_of_lt b.isLt]
  case arithmetic =>
    rw [toInt_div_two_pow_32]
    split <;> rfl

end Sys2Proof.Machine
end

section
/-! Proofs of the statements about branches and jumps (42_branch_jump.md). The branches end in `State.branch`, J and JR
in a write of the pc; what is left of each is its condition and its target, as the statement writes them. -/

namespace Sys2Proof.Machine

/-! ## Targets (30_encoding.md R108, 42_branch_jump.md R200, R207) -/

theorem branchOffset_eq (imm : Half) : branchOffset imm = imm.signExtend 32 * 4#32 :=
  calc wrap32 ((sext32 16 imm).toInt * 4)
    _ = mulWrap (sext32 16 imm).toInt (4#32).toInt := rfl
    _ = imm.signExtend 32 * 4#32 := by rw [mulWrap_eq, wrap32_toInt, wrap32_toInt, sext32_eq]

/-- A word is its bits 31..26, 25..2 and 1..0. -/
theorem append_jump_fields (w : Word) : w.extractLsb' 26 6 ++ w.extractLsb' 2 24 ++ w.extractLsb' 0 2 = w := by
  rw [BitVec.extractLsb'_append_extractLsb'_eq_extractLsb' (start₁ := 2) (len₁ := 24) rfl,
    BitVec.extractLsb'_append_extractLsb'_eq_extractLsb' (start₁ := 0) (len₁ := 2) rfl, BitVec.extractLsb'_eq_self]

/-- Four times the 24-bit immediate is the immediate above two zero bits. -/
theorem setWidth_mul_four (imm : BitVec 24) : imm.setWidth 32 * 4#32 = 0#6 ++ imm ++ 0#2 := by
  have happend : (0#6 ++ imm ++ 0#2).toNat = imm.toNat * 4 := by
    rw [BitVec.toNat_append (0#6 ++ imm) 0#2, BitVec.toNat_append]
    simp [Nat.shiftLeft_eq]
  apply BitVec.eq_of_toNat_eq
  rw [happend, BitVec.toNat_mul, BitVec.toNat_setWidth_of_le (by decide)]
  exact Nat.mod_eq_of_lt (show imm.toNat * 4 < 2 ^ 32 by omega)

/-- J's target: the mask keeps the top six bits of the source, and the immediate stands below them. -/
theorem jump_target_eq (w : Word) (imm : BitVec 24) :
    w.extractLsb' 26 6 ++ imm ++ 0#2 = (w &&& 0xFC000000#32) ||| imm.setWidth 32 * 4#32 := by
  have hmask : w &&& 0xFC000000#32 = w.extractLsb' 26 6 ++ 0#24 ++ 0#2 :=
    calc w &&& 0xFC000000#32
      _ = (w.extractLsb' 26 6 ++ w.extractLsb' 2 24 ++ w.extractLsb' 0 2) &&&
            (BitVec.allOnes 6 ++ 0#24 ++ 0#2) := by rw [append_jump_fields]; rfl
      _ = w.extractLsb' 26 6 ++ 0#24 ++ 0#2 := by
        rw [BitVec.and_append, BitVec.and_append, BitVec.and_allOnes, BitVec.and_zero, BitVec.and_zero]
  rw [hmask, setWidth_mul_four, BitVec.or_append, BitVec.or_append, BitVec.or_zero, BitVec.zero_or, BitVec.zero_or]

/-! ## Branches (R200 to R206) -/

/-- A branch goes on with its target if its condition holds, else with the next instruction. -/
theorem State.branch_branchesTo (s : State) {c : Bool} {taken : Prop} (imm : Half) (hc : c = true ↔ taken) :
    ∃ t, s.branch c imm = .next t ∧ BranchesTo s t taken (s.pcSrc + imm.signExtend 32 * 4#32) := by
  rw [← branchOffset_eq]
  cases c with
  | true => exact ⟨_, rfl, fun _ => s.jumpsTo_setPc _, fun hnot => absurd (hc.mp rfl) hnot⟩
  | false => exact ⟨_, rfl, fun htaken => (nomatch hc.mpr htaken), fun _ => s.jumpsTo_advance⟩

/-- Settles O18: B is the branch that is always taken. -/
theorem branchesTakenOrNot : Obligations.BranchesTakenOrNot := by
  intro s ra rb imm
  refine ⟨?b, s.branch_branchesTo imm ?be, s.branch_branchesTo imm ?bne, s.branch_branchesTo imm ?bnez,
    s.branch_branchesTo imm ?blt, s.branch_branchesTo imm ?bgt⟩
  case b =>
    obtain ⟨t, hexec, htaken, _⟩ := s.branch_branchesTo imm (iff_of_true rfl trivial)
    exact ⟨t, hexec, htaken trivial⟩
  case be => exact beq_iff_eq
  case bne | bnez => exact bne_iff_ne
  case blt | bgt => exact decide_eq_true_iff

/-! ## BNEZ (R204) -/

theorem exec_bnez (s : State) (ra : Reg) (imm : Half) : exec (.bnez ra imm) s = exec (.bne ra 0 imm) s := rfl

/-- Every word of BNEZ's row is read as BNE with rb = R0 (R122). -/
theorem decode_bnez_row {w : Word} (h : w &&& 0xFF0F0000#32 = 0x26000000#32) :
    decode w = .ok (.bne (reg4 w 20) 0 (imm16 w)) := by
  have hop : bits w 24 8 = 0x26 := bits_of_and_mask h 24 8 rfl
  have hrb : reg4 w 16 = 0 := Fin.ext (bits_of_and_mask h 16 4 rfl)
  rw [← hrb]
  exact decode_of_new (by rw [hop]; rfl)

theorem toNat_extractLsb'_eq_bits (w : Word) (lo width : Nat) : (w.extractLsb' lo width).toNat = bits w lo width := by
  rw [BitVec.extractLsb'_toNat, Nat.shiftRight_eq_div_pow, bits]

theorem imm16_eq (w : Word) : imm16 w = w.extractLsb' 0 16 := by
  rw [imm16, ← toNat_extractLsb'_eq_bits, BitVec.ofNat_toNat, BitVec.setWidth_eq]

/-- Settles O19: the two spellings share the encoder's word, and the alias row fixes the field of rb to 0. -/
theorem bnezIsBneWithR0 : Obligations.BnezIsBneWithR0 := by
  refine ⟨fun s ra imm => ⟨exec_bnez s ra imm, (encode_core (.bnez ra imm)).symm,
    s.branch_branchesTo imm bne_iff_ne, rfl, rfl⟩, fun w h => ⟨reg4 w 20, ?ra, ?decode⟩⟩
  case ra => exact (toNat_extractLsb'_eq_bits w 20 4).symm
  case decode => rw [← imm16_eq, decode_bnez_row h]

/-! ## J and JR (R207, R208), CALL and RET (R209, R210) -/

theorem exec_j (s : State) (imm : BitVec 24) :
    exec (.j imm) s = .next (s.setPc ((s.pcSrc &&& 0xFC000000#32) ||| imm.setWidth 32 * 4#32)) :=
  congrArg (fun a => Host.Outcome.next (s.setPc a)) (jump_target_eq s.pcSrc imm)

theorem exec_jr (s : State) (ra : Reg) : exec (.jr ra) s = .next (s.setPc (s.readX ra)) := rfl

/-- Settles O20: both are writes of the pc. -/
theorem jumpTargets : Obligations.JumpTargets := fun s ra imm =>
  ⟨⟨_, exec_j s imm, s.jumpsTo_setPc _⟩, _, exec_jr s ra, s.jumpsTo_setPc _⟩

/-- Settles O21: the source gives neither instruction a meaning, so no operand is read. -/
theorem callAndRetRefuse : Obligations.CallAndRetRefuse := fun _ _ => ⟨rfl, rfl⟩

end Sys2Proof.Machine
end

section
/-! Proofs of the statements about loads, stores and immediate loads (43_load_store.md). An allowed load is the write of
a register, an allowed store the write of bytes; what is left of each instruction is an equation between the value the
machine computes and the bytes or the word that the statement names. -/

namespace Sys2Proof.Machine

/-! ## The effective address (R220) -/

/-- Both extensions agree on a value whose top bit is clear. -/
theorem extend_of_msb_false (e : Extension) {n : Nat} {v : BitVec n} (h : v.msb = false) :
    extend e n v = v.setWidth 32 := by
  cases e with
  | sign => exact (extend_sign n v).trans (BitVec.signExtend_eq_setWidth_of_msb_false h)
  | zero => exact extend_zero n v

section EffAddr

variable {s : State} (rb : Reg) (imm : Half)

theorem State.effAddr_sign (h : s.params.lsImmExt = .sign) : s.effAddr rb imm = s.readX rb + imm.signExtend 32 := by
  rw [State.effAddr, h, extend_sign]

theorem State.effAddr_zero (h : s.params.lsImmExt = .zero) : s.effAddr rb imm = s.readX rb + imm.setWidth 32 := by
  rw [State.effAddr, h, extend_zero]

end EffAddr

/-- Settles O22: R0 as the base adds zero, and below 0x8000 the setting does not matter. -/
theorem effectiveAddress : Obligations.EffectiveAddress := by
  intro s rb imm
  refine ⟨State.effAddr_sign rb imm, State.effAddr_zero rb imm, fun h => ?signR0, fun h => ?zeroR0, fun h => ?agree⟩
  case signR0 => rw [State.effAddr_sign 0 imm h, State.readX_zero, BitVec.zero_add]
  case zeroR0 => rw [State.effAddr_zero 0 imm h, State.readX_zero, BitVec.zero_add]
  case agree => rw [State.effAddr, extend_of_msb_false _ h]

/-! ## The values that a load reads (20_memory.md R71) -/

theorem State.readBytes_eq_map_byteFrom (s : State) (a : Word) (n : Nat) :
    Memory.readBytes s.mem a n = (List.range n).map (s.byteFrom a) := by
  apply List.ext_getElem (by simp)
  intro k hk _
  rw [Memory.getElem_readBytes, List.getElem_map, List.getElem_range, State.byteFrom]

theorem ofNat_leValue_singleton (b : Byte) : BitVec.ofNat 8 (leValue [b]) = b := by
  simp [leValue]

section Values

variable (s : State) (a : Word)

theorem State.ofNat_leValue_readBytes_one : BitVec.ofNat 8 (leValue (Memory.readBytes s.mem a 1)) = s.byteFrom a 0 := by
  rw [s.readBytes_eq_map_byteFrom]
  exact ofNat_leValue_singleton _

theorem State.halfAt_eq : s.halfAt a = BitVec.ofNat 16 (leValue (Memory.readBytes s.mem a 2)) := by
  rw [s.readBytes_eq_map_byteFrom]
  simp only [List.range, List.range.loop, List.map_cons, List.map_nil]
  rw [ofNat_leValue_cons 8, ofNat_leValue_singleton]
  rfl

theorem State.longAt_eq : s.longAt a = BitVec.ofNat 64 (leValue (Memory.readBytes s.mem a 8)) := by
  rw [s.readBytes_eq_map_byteFrom]
  simp only [List.range, List.range.loop, List.map_cons, List.map_nil]
  rw [ofNat_leValue_cons 56, ofNat_leValue_cons 48, ofNat_leValue_cons 40, ofNat_leValue_cons 32,
    ofNat_leValue_cons 24, ofNat_leValue_cons 16, ofNat_leValue_cons 8, ofNat_leValue_singleton]
  rfl

end Values

/-- Extension as a statement writes it, by the two settings (R222). -/
theorem extend_eq (e : Extension) (n : Nat) (v : BitVec n) :
    extend e n v = match e with
      | .sign => v.signExtend 32
      | .zero => v.setWidth 32 := by
  cases e with
  | sign => exact extend_sign n v
  | zero => exact extend_zero n v

/-! ## Loads that complete (R221 to R224) -/

/-- `f[fa] <- v; next` leaves the rest of the state as it was. -/
theorem State.writesF_setF (s : State) (fa : Reg) (v : Long) : WritesF s (s.setF fa v).advance fa v where
  only :=
    { regs :=
        { x := fun _ _ => rfl
          f := fun _ hq => s.setF_readF_of_ne v (ne_of_mem_of_not_mem (List.mem_singleton_self fa) hq) }
      mem := fun _ => rfl
      system := ⟨rfl, rfl, rfl, rfl, rfl, rfl, rfl, rfl⟩
      outside := ⟨rfl, rfl, rfl, rfl⟩ }
  result := by simp
  pc := rfl
  draws := rfl

section Loads

variable {i : Instr} {s : State} {a : Word} {n : Nat}

/-- An allowed load into an indexed register writes the value that `f` makes of the bytes read. -/
theorem exec_writesX_of_loadThen {ra : Reg} {f : Nat → Word} {v : Word}
    (h : exec i s = s.loadThen a n fun u => s.writeX ra (f u)) (halign : s.AlignedFor a n) (hin : s.InMemory a n)
    (hv : f (leValue (Memory.readBytes s.mem a n)) = v) : ∃ t, exec i s = .next t ∧ WritesX s t ra v :=
  exec_writesX (h.trans (State.loadThen_eq _ halign hin)) hv

/-- An allowed load into a floating-point register. -/
theorem exec_writesF_of_loadThen {fa : Reg} {f : Nat → Long} {v : Long}
    (h : exec i s = s.loadThen a n fun u => s.writeF fa (f u)) (halign : s.AlignedFor a n) (hin : s.InMemory a n)
    (hv : f (leValue (Memory.readBytes s.mem a n)) = v) : ∃ t, exec i s = .next t ∧ WritesF s t fa v := by
  subst hv
  exact ⟨_, h.trans (State.loadThen_eq _ halign hin), s.writesF_setF fa _⟩

end Loads

/-- Settles O23. -/
theorem loadsComplete : Obligations.LoadsComplete := by
  intro s ra rb fa imm a
  refine ⟨fun halign hin => exec_writesX_of_loadThen rfl halign hin (s.wordAt_eq a).symm,
    fun halign hin => exec_writesX_of_loadThen rfl halign hin ?half,
    fun hin => exec_writesX_of_loadThen rfl (s.alignedFor_one a) hin ?byte,
    fun halign hin => exec_writesF_of_loadThen rfl halign hin (s.longAt_eq a).symm⟩
  case half =>
    rw [← s.halfAt_eq]
    exact extend_eq _ 16 _
  case byte =>
    rw [s.ofNat_leValue_readBytes_one]
    exact extend_eq _ 8 _

/-! ## Stores that complete (R228 to R231) -/

/-- The bytes of a pattern are its slices of eight bits, the lowest first (R71). -/
theorem leBytes_toNat {w : Nat} (v : BitVec w) (n : Nat) :
    leBytes n v.toNat = (List.range n).map fun k => v.extractLsb' (8 * k) 8 := by
  apply List.ext_getElem (by simp)
  intro k hk _
  rw [getElem_leBytes, List.getElem_map, List.getElem_range]
  apply BitVec.eq_of_toNat_eq
  rw [BitVec.toNat_ofNat, BitVec.extractLsb'_toNat, Nat.shiftRight_eq_div_pow, Nat.pow_mul]

theorem leBytes_half (v : Half) : leBytes 2 v.toNat = bytesOfHalf v := leBytes_toNat v 2

theorem leBytes_word (v : Word) : leBytes 4 v.toNat = bytesOfWord v := leBytes_toNat v 4

theorem leBytes_long (v : Long) : leBytes 8 v.toNat = bytesOfLong v := leBytes_toNat v 8

theorem leBytes_byte (v : Byte) : leBytes 1 v.toNat = [v] := by
  rw [leBytes, leBytes, BitVec.ofNat_toNat, BitVec.setWidth_eq]

/-- A write of bytes to memory and `next` leave the rest of the state as it was; the canonical form of memory makes the
bytes read back. -/
theorem State.storesBytes_setMem {s : State} (hm : Memory.wf s.mem) (a : Word) {bs : List Byte}
    (hlen : bs.length ≤ 2 ^ 32) : StoresBytes s (s.setMem (Memory.writeBytes s.mem a bs)).advance a bs [] where
  stored k hk := Memory.read_writeBytes s.mem a bs k hm hlen hk
  others b hb := Memory.read_writeBytes_ne s.mem a bs b hb
  regs := ⟨fun _ _ => rfl, fun _ _ => rfl⟩
  system := ⟨rfl, rfl, rfl, rfl, rfl, rfl, rfl, rfl⟩
  outside := ⟨rfl, rfl, rfl, rfl⟩
  pc := rfl

/-- An allowed store writes the `n` bytes of its value. -/
theorem exec_storesBytes_of_storeThen {i : Instr} {s : State} {a : Word} {n v : Nat} {bs : List Byte}
    (h : exec i s = s.storeThen a n v State.toNext) (hm : Memory.wf s.mem) (halign : s.AlignedFor a n)
    (hok : s.Storable a n) (hn : n ≤ 2 ^ 32) (hbs : leBytes n v = bs) :
    ∃ t, exec i s = .next t ∧ StoresBytes s t a bs [] ∧ t.draws = s.draws := by
  subst hbs
  have hlen : (leBytes n v).length ≤ 2 ^ 32 := (length_leBytes n v).symm ▸ hn
  exact ⟨_, h.trans (State.storeThen_eq _ halign hok), State.storesBytes_setMem hm a hlen, rfl⟩

/-- Settles O24. -/
theorem storesComplete : Obligations.StoresComplete := by
  intro s ra rb fa imm hm a
  exact ⟨fun halign hok => exec_storesBytes_of_storeThen rfl hm halign hok (by decide) (leBytes_word _),
    fun halign hok => exec_storesBytes_of_storeThen rfl hm halign hok (by decide) (leBytes_half _),
    fun hok => exec_storesBytes_of_storeThen rfl hm (s.alignedFor_one a) hok (by decide) (leBytes_byte _),
    fun halign hok => exec_storesBytes_of_storeThen rfl hm halign hok (by decide) (leBytes_long _)⟩

/-! ## Immediate loads (R225 to R227) -/

/-- LIH's word: the immediate above sixteen zero bits is the immediate times 2^16. -/
theorem highHalf_eq (imm : Half) : highHalf imm = imm.setWidth 32 * 0x10000#32 := by
  have hfits : imm.toNat * 2 ^ 16 < 2 ^ 32 := by omega
  have hfactor : (0x10000#32).toNat = 2 ^ 16 := rfl
  apply BitVec.eq_of_toNat_eq
  rw [highHalf, toNat_append_eq, BitVec.toNat_mul, BitVec.toNat_setWidth_of_le (by decide), hfactor,
    Nat.mod_eq_of_lt hfits]
  exact Nat.add_zero _

/-- Settles O26. -/
theorem immediateLoads : Obligations.ImmediateLoads := fun _ _ imm =>
  ⟨exec_writesX rfl (sext32_eq 16 imm), exec_writesX rfl (zext32_eq 16 imm), exec_writesX rfl (highHalf_eq imm)⟩

end Sys2Proof.Machine
end

section
/-! Proofs of the statements about the stack (44_stack.md). Under the candidate a push is the store of a value in the
slot below SP, a pop a load from the slot at SP; each is said once for both sizes, and the four instructions that have a
meaning are a push or a pop by definition. -/

namespace Sys2Proof.Machine

/-! ## The slot (R240, R241) -/

section Slot

variable {s : State} {a : Word} (m : String) (k : Out)

theorem State.stackSlot_of_refuse (h : s.params.stackSemantics = .refuse) :
    s.stackSlot m a k = .refused (.stackMeaningEmpty m) := by
  rw [State.stackSlot, h]
  rfl

theorem State.stackSlot_of_aligned (h : s.params.stackSemantics = .candidate) (ha : a.toNat % 8 = 0) :
    s.stackSlot m a k = k := by
  rw [State.stackSlot, h]
  exact if_pos ha

theorem State.stackSlot_of_misaligned (h : s.params.stackSemantics = .candidate) (ha : a.toNat % 8 ≠ 0) :
    s.stackSlot m a k = .fault (.misaligned (s.readX spIndex) 8 .stack) := by
  rw [State.stackSlot, h]
  exact if_neg ha

end Slot

/-- The slots are 8 apart, so a push finds its slot as aligned as SP. -/
theorem State.pushAddr_mod_eight (s : State) : s.pushAddr.toNat % 8 = (s.readX spIndex).toNat % 8 := by
  have hslot : (8#32).toNat = 8 := rfl
  rw [State.pushAddr, BitVec.toNat_sub, hslot]
  omega

/-- A slot meets R76 for every size that divides it, whatever MISALIGNED_DATA says. -/
theorem State.alignedFor_of_mod_eight (s : State) {a : Word} {n : Nat} (ha : a.toNat % 8 = 0) (hn : n ∣ 8) :
    s.AlignedFor a n :=
  .inr (Nat.mod_eq_zero_of_dvd (hn.trans (Nat.dvd_of_mod_eq_zero ha)))

/-- No slot wraps around onto itself. -/
theorem le_of_dvd_eight {n : Nat} (hn : n ∣ 8) : n ≤ 2 ^ 32 :=
  (Nat.le_of_dvd (by decide) hn).trans (by decide)

/-! ## Pushes and pops (R241) -/

/-- The push of the `n` low bytes of `v`. -/
def State.push (s : State) (m : String) (n v : Nat) : Out :=
  s.stackSlot m s.pushAddr (s.storeThen s.pushAddr n v fun t => t.writeX spIndex s.pushAddr)

/-- The state after SP has moved up over its slot. -/
def State.dropSlot (s : State) : State := s.setX spIndex (s.popAddr + 8#32)

/-- The pop of `n` bytes: their value goes to `k`, with SP moved. -/
def State.pop (s : State) (m : String) (n : Nat) (k : State → Nat → Out) : Out :=
  s.stackSlot m s.popAddr (s.loadThen s.popAddr n (k s.dropSlot))

theorem exec_pshw (s : State) (ra : Reg) : exec (.pshw ra) s = s.push "PSHW" 4 (s.readX ra).toNat := rfl

theorem exec_pshf (s : State) (fa : Reg) : exec (.pshf fa) s = s.push "PSHF" 8 (s.readF fa).toNat := rfl

theorem exec_popw (s : State) (ra : Reg) :
    exec (.popw ra) s = s.pop "POPW" 4 fun t v => t.writeX ra (BitVec.ofNat 32 v) := rfl

theorem exec_popf (s : State) (fa : Reg) :
    exec (.popf fa) s = s.pop "POPF" 8 fun t v => t.writeF fa (BitVec.ofNat 64 v) := rfl

/-- The state after a push of bytes that went on. -/
def State.pushed (s : State) (bs : List Byte) : State :=
  ((s.setMem (Memory.writeBytes s.mem s.pushAddr bs)).setX spIndex s.pushAddr).advance

section Pushed

variable (s : State) (bs : List Byte)

@[simp] theorem State.pushed_mem : (s.pushed bs).mem = Memory.writeBytes s.mem s.pushAddr bs := by
  simp [State.pushed]

@[simp] theorem State.pushed_memsz : (s.pushed bs).memsz = s.memsz := by simp [State.pushed]

@[simp] theorem State.pushed_params : (s.pushed bs).params = s.params := by simp [State.pushed]

@[simp] theorem State.pushed_draws : (s.pushed bs).draws = s.draws := by simp [State.pushed]

@[simp] theorem State.pushed_readX_spIndex : (s.pushed bs).readX spIndex = s.pushAddr := by
  simp [State.pushed, spIndex]

end Pushed

/-- A push leaves all but its bytes, SP and the pc as they were; the canonical form of memory makes the bytes read
back. -/
theorem State.storesBytes_pushed {s : State} (hm : Memory.wf s.mem) {bs : List Byte} (hlen : bs.length ≤ 2 ^ 32) :
    StoresBytes s (s.pushed bs) s.pushAddr bs [spIndex] where
  stored k hk := by
    rw [s.pushed_mem]
    exact Memory.read_writeBytes s.mem s.pushAddr bs k hm hlen hk
  others b hb := by
    rw [s.pushed_mem]
    exact Memory.read_writeBytes_ne s.mem s.pushAddr bs b hb
  regs :=
    { x := fun _ hq => State.setX_readX_of_ne _ _ (ne_of_mem_of_not_mem (List.mem_singleton_self spIndex) hq)
      f := fun _ _ => by simp [State.pushed] }
  system := by constructor <;> simp [State.pushed]
  outside := by constructor <;> simp [State.pushed]
  pc := by simp [NextPc, State.pushed]

section Push

variable {s t : State} {m : String} {n v : Nat}

theorem State.push_eq (hc : s.params.stackSemantics = .candidate) (hsp : (s.readX spIndex).toNat % 8 = 0)
    (hn : n ∣ 8) (hok : s.Storable s.pushAddr n) : s.push m n v = .next (s.pushed (leBytes n v)) := by
  have hslot : s.pushAddr.toNat % 8 = 0 := s.pushAddr_mod_eight.trans hsp
  exact (State.stackSlot_of_aligned m _ hc hslot).trans
    (State.storeThen_eq _ (s.alignedFor_of_mod_eight hslot hn) hok)

theorem State.push_next (h : s.push m n v = .next t) :
    s.params.stackSemantics = .candidate ∧ s.pushAddr.toNat % 8 = 0 ∧ s.Storable s.pushAddr n ∧
      t = s.pushed (leBytes n v) := by
  obtain ⟨hc, hslot, h⟩ := State.stackSlot_next h
  obtain ⟨_, hok, h⟩ := State.storeThen_next h
  exact ⟨hc, hslot, hok, State.writeX_next h⟩

theorem State.pop_eq {k : State → Nat → Out} (hc : s.params.stackSemantics = .candidate)
    (hsp : s.popAddr.toNat % 8 = 0) (hn : n ∣ 8) (hin : s.InMemory s.popAddr n) :
    s.pop m n k = k s.dropSlot (leValue (Memory.readBytes s.mem s.popAddr n)) :=
  (State.stackSlot_of_aligned m _ hc hsp).trans (State.loadThen_eq _ (s.alignedFor_of_mod_eight hsp hn) hin)

end Push

/-! ## Pushes that complete -/

/-- An instruction that pushes `n` bytes stores them and moves SP to them. -/
theorem exec_storesBytes_of_push {i : Instr} {s : State} {m : String} {n v : Nat} {bs : List Byte}
    (h : exec i s = s.push m n v) (hm : Memory.wf s.mem) (hc : s.params.stackSemantics = .candidate)
    (hsp : (s.readX spIndex).toNat % 8 = 0) (hn : n ∣ 8) (hok : s.Storable s.pushAddr n) (hbs : leBytes n v = bs) :
    ∃ t, exec i s = .next t ∧ StoresBytes s t s.pushAddr bs [spIndex] ∧ t.readX spIndex = s.pushAddr ∧
      t.draws = s.draws := by
  subst hbs
  have hlen : (leBytes n v).length ≤ 2 ^ 32 := (length_leBytes n v).trans_le (le_of_dvd_eight hn)
  exact ⟨_, h.trans (State.push_eq hc hsp hn hok), State.storesBytes_pushed hm hlen, s.pushed_readX_spIndex _,
    s.pushed_draws _⟩

/-- Settles O29. -/
theorem candidatePushesStore : Obligations.CandidatePushesStore := by
  intro s ra fa hm hc hsp a
  exact ⟨rfl,
    fun hok => exec_storesBytes_of_push (exec_pshw s ra) hm hc hsp (by decide) hok (leBytes_word _),
    fun hok => exec_storesBytes_of_push (exec_pshf s fa) hm hc hsp (by decide) hok (leBytes_long _)⟩

/-! ## Pops that complete -/

/-- Frames compose: what both steps leave alone is as it was. -/
theorem OnlyRegs.trans {s t u : State} {xs ys fs gs : List Reg} (hst : OnlyRegs s t xs fs)
    (htu : OnlyRegs t u ys gs) : OnlyRegs s u (ys ++ xs) (gs ++ fs) where
  regs :=
    { x := fun q hq =>
        have ⟨hy, hx⟩ := not_or.mp (List.mem_append.not.mp hq)
        (htu.regs.x q hy).trans (hst.regs.x q hx)
      f := fun q hq =>
        have ⟨hg, hf⟩ := not_or.mp (List.mem_append.not.mp hq)
        (htu.regs.f q hg).trans (hst.regs.f q hf) }
  mem a := (htu.mem a).trans (hst.mem a)
  system := by
    obtain ⟨_, _, _, _, _, _, _, _⟩ := hst.system
    obtain ⟨_, _, _, _, _, _, _, _⟩ := htu.system
    constructor <;> simp [*]
  outside := by
    obtain ⟨_, _, _, _⟩ := hst.outside
    obtain ⟨_, _, _, _⟩ := htu.outside
    constructor <;> simp [*]

section DropSlot

variable (s : State)

@[simp] theorem State.dropSlot_pc : s.dropSlot.pc = s.pc := by simp [State.dropSlot]

@[simp] theorem State.dropSlot_draws : s.dropSlot.draws = s.draws := by simp [State.dropSlot]

@[simp] theorem State.dropSlot_readX_spIndex : s.dropSlot.readX spIndex = s.popAddr + 8#32 := by
  simp [State.dropSlot, spIndex]

theorem State.onlyRegs_dropSlot : OnlyRegs s s.dropSlot [spIndex] [] where
  regs :=
    { x := fun _ hq => s.setX_readX_of_ne _ (ne_of_mem_of_not_mem (List.mem_singleton_self spIndex) hq)
      f := fun _ _ => by simp [State.dropSlot] }
  mem _ := by simp [State.dropSlot]
  system := by constructor <;> simp [State.dropSlot]
  outside := by constructor <;> simp [State.dropSlot]

end DropSlot

/-- Settles O30: a pop is the move of SP, then the write of a register; a POPW of SP writes the register last. -/
theorem candidatePopsLoad : Obligations.CandidatePopsLoad := by
  intro s ra fa hc a hsp
  refine ⟨fun hin => ?popw, fun hin => ?popf⟩
  case popw =>
    have hw : WritesX s.dropSlot _ ra (s.wordAt a) := s.dropSlot.writesX_setX ra (s.wordAt a)
    refine ⟨_, ?next, s.onlyRegs_dropSlot.trans hw.only, hw.result, fun hra => ?sp, ?pc,
      hw.draws.trans s.dropSlot_draws⟩
    case next =>
      rw [exec_popw, State.pop_eq hc hsp (by decide) hin, s.wordAt_eq]
      rfl
    case sp => exact (hw.only.regs.x spIndex (List.mem_singleton.not.mpr hra.symm)).trans s.dropSlot_readX_spIndex
    case pc => exact hw.pc.trans (congrArg (· + 4#32) s.dropSlot_pc)
  case popf =>
    have hw : WritesF s.dropSlot _ fa (s.longAt a) := s.dropSlot.writesF_setF fa (s.longAt a)
    refine ⟨_, ?next, s.onlyRegs_dropSlot.trans hw.only, hw.result, ?sp, ?pc, hw.draws.trans s.dropSlot_draws⟩
    case next =>
      rw [exec_popf, State.pop_eq hc hsp (by decide) hin, s.longAt_eq]
      rfl
    case sp => exact (hw.only.regs.x spIndex List.not_mem_nil).trans s.dropSlot_readX_spIndex
    case pc => exact hw.pc.trans (congrArg (· + 4#32) s.dropSlot_pc)

/-! ## A pop after a push -/

/-- A pop reads the slot that the push before it wrote. -/
theorem State.pushed_popAddr (s : State) (bs : List Byte) : (s.pushed bs).popAddr = s.pushAddr :=
  s.pushed_readX_spIndex bs

/-- A pop goes on after a push of as many bytes, with the value pushed. -/
theorem State.pop_of_push {s t : State} {m m' : String} {n v : Nat} {k : State → Nat → Out} (hm : Memory.wf s.mem)
    (h : s.push m n v = .next t) (hn : n ∣ 8) : t.pop m' n k = k t.dropSlot (v % 256 ^ n) := by
  obtain ⟨hc, hslot, hok, rfl⟩ := State.push_next h
  have haddr := s.pushed_popAddr (leBytes n v)
  have hin : (s.pushed (leBytes n v)).InMemory s.pushAddr n := fun j hj => (s.pushed_memsz _).symm ▸ hok.1 j hj
  rw [State.pop_eq ((s.pushed_params _).symm ▸ hc) (haddr.symm ▸ hslot) hn (haddr.symm ▸ hin), haddr, s.pushed_mem,
    Memory.readBytes_writeBytes_leBytes hm s.pushAddr v le_rfl (le_of_dvd_eight hn), leValue_leBytes]

/-- The pop's move of SP undoes the push's. -/
theorem State.dropSlot_readX_spIndex_of_push {s t : State} {m : String} {n v : Nat} (h : s.push m n v = .next t) :
    t.dropSlot.readX spIndex = s.readX spIndex := by
  obtain ⟨_, _, _, rfl⟩ := State.push_next h
  rw [State.dropSlot_readX_spIndex, State.pushed_popAddr]
  exact BitVec.sub_add_cancel (s.readX spIndex) 8#32

theorem exec_popw_of_pshw {s t : State} {ra : Reg} (hm : Memory.wf s.mem) (h : exec (.pshw ra) s = .next t)
    (rd : Reg) : exec (.popw rd) t = t.dropSlot.writeX rd (s.readX ra) := by
  rw [exec_popw, State.pop_of_push hm h (by decide), ofNat_mod_eq_extractLsb' _ 4, BitVec.extractLsb'_eq_self]

theorem exec_popf_of_pshf {s t : State} {fa : Reg} (hm : Memory.wf s.mem) (h : exec (.pshf fa) s = .next t)
    (fd : Reg) : exec (.popf fd) t = t.dropSlot.writeF fd (s.readF fa) := by
  rw [exec_popf, State.pop_of_push hm h (by decide), ofNat_mod_eq_extractLsb' _ 8, BitVec.extractLsb'_eq_self]

/-- Settles O31. -/
theorem pushThenPopReturnsValue : Obligations.PushThenPopReturnsValue := by
  intro s t ra rd fa fd hm
  refine ⟨fun h => ?word, fun h => ?long⟩
  case word =>
    have hw := t.dropSlot.writesX_setX rd (s.readX ra)
    refine ⟨_, exec_popw_of_pshw hm h rd, fun hrd => hw.result.trans (if_neg hrd), fun hrd => ?sp⟩
    case sp =>
      exact (hw.only.regs.x spIndex (List.mem_singleton.not.mpr hrd.symm)).trans
        (State.dropSlot_readX_spIndex_of_push h)
  case long =>
    have hw := t.dropSlot.writesF_setF fd (s.readF fa)
    exact ⟨_, exec_popf_of_pshf hm h fd, hw.result,
      (hw.only.regs.x spIndex List.not_mem_nil).trans (State.dropSlot_readX_spIndex_of_push h)⟩

/-! ## Pushes and pops that stop (R240, R241, 20_memory.md R80, R90) -/

section Stops

variable {i : Instr} {s : State} {m : String} {n : Nat}

/-- At an aligned slot a push is its store, and stops as that does. -/
theorem exec_accessFault_of_push {v : Nat} (h : exec i s = s.push m n v)
    (hc : s.params.stackSemantics = .candidate) (hsp : (s.readX spIndex).toNat % 8 = 0) (hn : n ∣ 8)
    (hbad : ¬ s.Storable s.pushAddr n) : exec i s = .fault (.accessFault s.pushAddr n .store) := by
  have hslot : s.pushAddr.toNat % 8 = 0 := s.pushAddr_mod_eight.trans hsp
  have hstore := h.trans (State.stackSlot_of_aligned m _ hc hslot)
  exact (accessStops_of_storeThen hstore).2 (s.alignedFor_of_mod_eight hslot hn) hbad

/-- At an aligned slot a pop is its load, and stops as that does. -/
theorem exec_accessFault_of_pop {k : State → Nat → Out} (h : exec i s = s.pop m n k)
    (hc : s.params.stackSemantics = .candidate) (hsp : s.popAddr.toNat % 8 = 0) (hn : n ∣ 8)
    (hbad : ¬ s.InMemory s.popAddr n) : exec i s = .fault (.accessFault s.popAddr n .load) := by
  have hload := h.trans (State.stackSlot_of_aligned m _ hc hsp)
  exact (accessStops_of_loadThen hload).2 (s.alignedFor_of_mod_eight hsp hn) hbad

end Stops

/-- Settles O32: the slot of a push is as aligned as SP, and the alignment comes before the access. -/
theorem candidateStackStops : Obligations.CandidateStackStops := by
  intro s r hc sp
  refine ⟨fun hsp => ?misaligned, fun hsp => ?access⟩
  case misaligned =>
    have hpush : s.pushAddr.toNat % 8 ≠ 0 := s.pushAddr_mod_eight ▸ hsp
    exact ⟨State.stackSlot_of_misaligned _ _ hc hsp, State.stackSlot_of_misaligned _ _ hc hsp,
      State.stackSlot_of_misaligned _ _ hc hpush, State.stackSlot_of_misaligned _ _ hc hpush⟩
  case access =>
    exact ⟨exec_accessFault_of_pop (exec_popw s r) hc hsp (by decide),
      exec_accessFault_of_pop (exec_popf s r) hc hsp (by decide),
      exec_accessFault_of_push (exec_pshw s r) hc hsp (by decide),
      exec_accessFault_of_push (exec_pshf s r) hc hsp (by decide)⟩

/-- Settles O28. -/
theorem stackInstructionsRefuse : Obligations.StackInstructionsRefuse := fun _ _ =>
  ⟨fun h => ⟨State.stackSlot_of_refuse _ _ h, State.stackSlot_of_refuse _ _ h, State.stackSlot_of_refuse _ _ h,
    State.stackSlot_of_refuse _ _ h⟩, rfl, rfl, rfl, rfl, rfl, rfl⟩

end Sys2Proof.Machine
end

section
/-! Proofs about binary64 patterns (45_float.md R260): the classes of a pattern by the bits below its sign, the fields
of a packed pattern, the magnitude as a significand scaled by a power of two, and what negation changes. -/

namespace Sys2Proof.Machine

/-! ## The fields of a pattern -/

theorem FP.magBits_lt (p : Long) : FP.magBits p < 2 ^ 63 :=
  Nat.mod_lt _ (by decide)

theorem FP.frac_eq (p : Long) : FP.frac p = FP.magBits p % 2 ^ 52 :=
  (Nat.mod_mod_of_dvd p.toNat (by decide)).symm

theorem FP.sign_eq_msb (p : Long) : FP.sign p = p.msb :=
  (BitVec.msb_eq_decide p).symm

theorem FP.toNat_pack {m : Nat} (neg : Bool) (h : m < 2 ^ 63) :
    (FP.pack neg m).toNat = (if neg then 2 ^ 63 else 0) + m := by
  rw [FP.pack, BitVec.toNat_ofNat]
  exact Nat.mod_eq_of_lt (by split <;> omega)

theorem FP.sign_pack {m : Nat} (neg : Bool) (h : m < 2 ^ 63) : FP.sign (FP.pack neg m) = neg := by
  rw [FP.sign, FP.toNat_pack neg h]
  cases neg <;> simp
  omega

theorem FP.magBits_pack {m : Nat} (neg : Bool) (h : m < 2 ^ 63) : FP.magBits (FP.pack neg m) = m := by
  rw [FP.magBits, FP.toNat_pack neg h]
  cases neg <;> simp <;> omega

/-- A pattern is packed from its own sign and magnitude bits. -/
theorem FP.pack_sign_magBits (p : Long) : FP.pack (FP.sign p) (FP.magBits p) = p := by
  apply BitVec.eq_of_toNat_eq
  rw [FP.toNat_pack _ (FP.magBits_lt p), FP.sign, FP.magBits]
  have hp := p.isLt
  simp only [decide_eq_true_eq]
  split <;> omega

/-! ## The classes of a pattern, by its magnitude bits -/

theorem FP.isNan_eq (p : Long) : FP.isNan p = decide (FP.infBits < FP.magBits p) := by
  have hp := FP.magBits_lt p
  rw [FP.isNan, FP.frac_eq, FP.expo, FP.infBits, decide_eq_decide]
  omega

theorem FP.isInf_eq (p : Long) : FP.isInf p = decide (FP.magBits p = FP.infBits) := by
  rw [FP.isInf, FP.frac_eq, FP.expo, FP.infBits, decide_eq_decide]
  omega

theorem FP.isFinite_eq (p : Long) : FP.isFinite p = decide (FP.magBits p < FP.infBits) := by
  rw [FP.isFinite, FP.expo, FP.infBits, decide_eq_decide]
  omega

theorem FP.isZero_eq (p : Long) : FP.isZero p = decide (FP.magBits p = 0) := rfl

theorem FP.infBits_pos : 0 < FP.infBits := by decide

section Classes

variable {p : Long}

theorem FP.isNan_of_isFinite (h : FP.isFinite p = true) : FP.isNan p = false := by
  simp only [FP.isFinite_eq, FP.isNan_eq, decide_eq_true_eq, decide_eq_false_iff_not] at h ⊢
  omega

theorem FP.isInf_of_isFinite (h : FP.isFinite p = true) : FP.isInf p = false := by
  simp only [FP.isFinite_eq, FP.isInf_eq, decide_eq_true_eq, decide_eq_false_iff_not] at h ⊢
  omega

theorem FP.isFinite_of_isZero (h : FP.isZero p = true) : FP.isFinite p = true := by
  simp only [FP.isFinite_eq, FP.isZero_eq, decide_eq_true_eq] at h ⊢
  exact h ▸ FP.infBits_pos

theorem FP.isNan_of_isInf (h : FP.isInf p = true) : FP.isNan p = false := by
  simp only [FP.isInf_eq, FP.isNan_eq, decide_eq_true_eq, decide_eq_false_iff_not] at h ⊢
  omega

theorem FP.isZero_of_isInf (h : FP.isInf p = true) : FP.isZero p = false := by
  simp only [FP.isInf_eq, FP.isZero_eq, decide_eq_true_eq, decide_eq_false_iff_not] at h ⊢
  exact h ▸ FP.infBits_pos.ne'

end Classes

/-! ## The magnitude -/

/-- The magnitude of the bits `k * 2^52 + q`, a carry of the significand `q` to 2^53 included. -/
theorem FP.mag_of_magBits {p : Long} {k q : Nat} (h : FP.magBits p = k * 2 ^ 52 + q) (hq : q ≤ 2 ^ 53)
    (hk : k = 0 ∨ 2 ^ 52 ≤ q) : FP.mag p = q * 2 ^ k := by
  rw [FP.mag, FP.expo, FP.frac_eq, h]
  rcases Nat.lt_or_ge q (2 ^ 52) with hsub | hnorm
  · obtain rfl : k = 0 := by omega
    rw [if_pos (by omega), pow_zero]
    omega
  rcases hq.eq_or_lt with rfl | hlt
  · have hexpo : (k * 2 ^ 52 + 2 ^ 53) / 2 ^ 52 = k + 2 := by omega
    have hfrac : (k * 2 ^ 52 + 2 ^ 53) % 2 ^ 52 = 0 := by omega
    rw [hexpo, hfrac, if_neg (by omega), show k + 2 - 1 = k + 1 from rfl, pow_succ]
    ring
  · have hexpo : (k * 2 ^ 52 + q) / 2 ^ 52 = k + 1 := by omega
    have hfrac : 2 ^ 52 + (k * 2 ^ 52 + q) % 2 ^ 52 = q := by omega
    rw [hexpo, hfrac, if_neg (by omega), Nat.add_sub_cancel]

/-- A magnitude is a significand below 2^53 scaled by a power of two, normal but at the least exponent. -/
theorem FP.exists_mag_eq (p : Long) :
    ∃ k q, FP.magBits p = k * 2 ^ 52 + q ∧ q < 2 ^ 53 ∧ (k = 0 ∨ 2 ^ 52 ≤ q) ∧ FP.mag p = q * 2 ^ k := by
  obtain ⟨k, q, h, hq, hk⟩ : ∃ k q, FP.magBits p = k * 2 ^ 52 + q ∧ q < 2 ^ 53 ∧ (k = 0 ∨ 2 ^ 52 ≤ q) := by
    rcases Nat.lt_or_ge (FP.magBits p) (2 ^ 52) with hsub | hnorm
    · exact ⟨0, FP.magBits p, by omega, by omega, .inl rfl⟩
    · exact ⟨FP.magBits p / 2 ^ 52 - 1, 2 ^ 52 + FP.magBits p % 2 ^ 52, by omega, by omega, .inr (by omega)⟩
  exact ⟨k, q, h, hq, hk, FP.mag_of_magBits h hq.le hk⟩

theorem FP.mag_eq_zero_iff (p : Long) : FP.mag p = 0 ↔ FP.isZero p = true := by
  obtain ⟨k, q, h, -, hk, hmag⟩ := FP.exists_mag_eq p
  have hpow : 2 ^ k ≠ 0 := (Nat.two_pow_pos k).ne'
  rw [hmag, Nat.mul_eq_zero, or_iff_left hpow, FP.isZero_eq, decide_eq_true_eq]
  omega

theorem FP.mag_pos {p : Long} (h : FP.isZero p = false) : 0 < FP.mag p :=
  Nat.pos_of_ne_zero fun h0 => Bool.false_ne_true (h.symm.trans ((FP.mag_eq_zero_iff p).mp h0))

/-- The greatest finite magnitude, in units of 2^-1074. -/
def FP.greatest : Nat := (2 ^ 53 - 1) * 2 ^ 2045

theorem FP.mag_le_of_isFinite {p : Long} (h : FP.isFinite p = true) : FP.mag p ≤ FP.greatest := by
  obtain ⟨k, q, hbits, hq, hk, hmag⟩ := FP.exists_mag_eq p
  rw [FP.isFinite_eq, decide_eq_true_eq, hbits, FP.infBits] at h
  have hk' : k ≤ 2045 := by omega
  rw [hmag, FP.greatest]
  gcongr
  · exact Nat.le_sub_one_of_lt hq
  · decide

/-- The magnitude of an infinity exceeds every finite one. -/
theorem FP.mag_lt_of_isFinite {p q : Long} (hp : FP.isFinite p = true) (hq : FP.isInf q = true) :
    FP.mag p < FP.mag q := by
  rw [FP.isInf_eq, decide_eq_true_eq] at hq
  rw [FP.mag_of_magBits (k := 2045) (q := 2 ^ 53) hq le_rfl (.inr (by decide))]
  refine (FP.mag_le_of_isFinite hp).trans_lt ?_
  rw [FP.greatest]
  gcongr
  decide

/-! ## The value -/

theorem FP.value_of_sign {p : Long} (h : FP.sign p = true) : FP.value p = -(FP.mag p : Int) := if_pos h

theorem FP.value_of_not_sign {p : Long} (h : FP.sign p = false) : FP.value p = FP.mag p :=
  if_neg (Bool.eq_false_iff.mp h)

theorem FP.natAbs_value (p : Long) : (FP.value p).natAbs = FP.mag p := by
  rw [FP.value]
  split <;> simp

theorem FP.value_eq_zero_iff (p : Long) : FP.value p = 0 ↔ FP.isZero p = true := by
  rw [← FP.mag_eq_zero_iff, ← FP.natAbs_value, Int.natAbs_eq_zero]

/-! ## Negation -/

theorem FP.sign_neg (p : Long) : FP.sign (FP.neg p) = !FP.sign p := by
  rw [FP.sign_eq_msb, FP.sign_eq_msb, FP.neg, BitVec.msb_xor]
  exact Bool.xor_true _

theorem FP.magBits_neg (p : Long) : FP.magBits (FP.neg p) = FP.magBits p := by
  rw [FP.magBits, FP.neg, BitVec.toNat_xor, Nat.xor_mod_two_pow]
  exact Nat.xor_zero _

theorem FP.mag_neg (p : Long) : FP.mag (FP.neg p) = FP.mag p := by
  rw [FP.mag, FP.mag, FP.frac_eq, FP.frac_eq, FP.expo, FP.expo, FP.magBits_neg]

theorem FP.value_neg (p : Long) : FP.value (FP.neg p) = -FP.value p := by
  rw [FP.value, FP.value, FP.mag_neg, FP.sign_neg]
  cases FP.sign p <;> simp

theorem FP.isNan_neg (p : Long) : FP.isNan (FP.neg p) = FP.isNan p := by
  rw [FP.isNan_eq, FP.isNan_eq, FP.magBits_neg]

theorem FP.isInf_neg (p : Long) : FP.isInf (FP.neg p) = FP.isInf p := by
  rw [FP.isInf_eq, FP.isInf_eq, FP.magBits_neg]

theorem FP.isFinite_neg (p : Long) : FP.isFinite (FP.neg p) = FP.isFinite p := by
  rw [FP.isFinite_eq, FP.isFinite_eq, FP.magBits_neg]

/-! ## A free NaN (R261, log 14) -/

/-- A quiet bit and an exponent of ones make a NaN of any pattern. -/
theorem FP.isNan_or_quiet (v : Long) : FP.isNan (v ||| 0x7FF8000000000000#64) = true := by
  have hbits : FP.magBits (v ||| 0x7FF8000000000000#64) = v.toNat % 2 ^ 63 ||| 0x7FF8000000000000 := by
    rw [FP.magBits, BitVec.toNat_or, Nat.or_mod_two_pow]
    rfl
  rw [FP.isNan_eq, hbits, decide_eq_true_eq]
  calc FP.infBits < 0x7FF8000000000000 := by decide
    _ ≤ _ := Nat.right_le_or

theorem FP.isNan_anyNan (v : Long) : FP.isNan (FP.anyNan v) = true := by
  unfold FP.anyNan
  split
  case isTrue h => exact h
  case isFalse => exact FP.isNan_or_quiet v

end Sys2Proof.Machine
end

section
/-! Proofs about rounding (45_float.md R261): `FP.roundBits` scales to a significand of at most 53 bits and takes the
nearest integer. That no finite pattern is nearer, of any exponent, follows from the bounds of `FP.Rounded`; a magnitude
that has such a significand already is rounded to itself. -/

namespace Sys2Proof.Machine

/-! ## The nearest integer -/

section Nearest

variable {num den : Nat}

theorem FP.two_mul_eq_div_add_mod (num den : Nat) : 2 * num = 2 * (num / den) * den + 2 * (num % den) := by
  rw [Nat.mul_assoc, Nat.mul_comm _ den, ← Nat.mul_add, Nat.div_add_mod]

theorem FP.div_le_nearest (num den : Nat) : num / den ≤ FP.nearest num den := by
  rw [FP.nearest]
  split <;> omega

theorem FP.nearest_le_div_add_one (num den : Nat) : FP.nearest num den ≤ num / den + 1 := by
  rw [FP.nearest]
  split <;> omega

/-- The nearest integer is at most half a unit above, and a tie upwards makes it even. -/
theorem FP.nearest_lower (hden : 0 < den) : 2 * FP.nearest num den * den ≤ 2 * num + den ∧
    (2 * FP.nearest num den * den = 2 * num + den → FP.nearest num den % 2 = 0) := by
  have hdiv := FP.two_mul_eq_div_add_mod num den
  rw [FP.nearest]
  split
  case isTrue h =>
    rw [Nat.mul_add, Nat.add_mul]
    omega
  case isFalse h => omega

/-- The nearest integer is at most half a unit below, and a tie downwards makes it even. -/
theorem FP.nearest_upper (hden : 0 < den) : 2 * num ≤ (2 * FP.nearest num den + 1) * den ∧
    (2 * num = (2 * FP.nearest num den + 1) * den → FP.nearest num den % 2 = 0) := by
  have hdiv := FP.two_mul_eq_div_add_mod num den
  have hmod := Nat.mod_lt num hden
  rw [FP.nearest]
  split
  case isTrue h =>
    rw [Nat.add_mul, Nat.mul_add, Nat.add_mul]
    omega
  case isFalse h =>
    rw [Nat.add_mul]
    omega

end Nearest

/-! ## The excess over 53 bits -/

theorem FP.lt_two_pow_excess (q : Nat) : q < 2 ^ 53 * 2 ^ FP.excess q := by
  rw [← Nat.pow_add, FP.excess]
  exact Nat.lt_log2_self.trans_le (Nat.pow_le_pow_right Nat.two_pos (by omega))

theorem FP.two_pow_excess_le {q : Nat} (h : FP.excess q ≠ 0) : 2 ^ 52 * 2 ^ FP.excess q ≤ q := by
  rw [FP.excess] at h ⊢
  have hq : q ≠ 0 := by
    rintro rfl
    exact h rfl
  rw [← Nat.pow_add, show 52 + (q.log2 - 52) = q.log2 by omega]
  exact Nat.log2_self_le hq

/-! ## A rounded significand -/

/-- `n`, scaled by `2^k`, is `num / den` rounded to a significand of 53 bits (a carry to 2^53 included), ties to even,
and normal but at the least exponent. -/
structure FP.Rounded (num den k n : Nat) : Prop where
  le : n ≤ 2 ^ 53
  normal : k = 0 ∨ 2 ^ 52 ≤ n ∧ 2 ^ 52 * 2 ^ k * den ≤ num
  lower : 2 * n * (2 ^ k * den) ≤ 2 * num + 2 ^ k * den
  upper : 2 * num ≤ (2 * n + 1) * (2 ^ k * den)
  evenUp : 2 * n * (2 ^ k * den) = 2 * num + 2 ^ k * den → n % 2 = 0
  evenDown : 2 * num = (2 * n + 1) * (2 ^ k * den) → n % 2 = 0

theorem FP.rounded_nearest {num den : Nat} (hden : 0 < den) :
    FP.Rounded num den (FP.excess (num / den)) (FP.nearest num (den * 2 ^ FP.excess (num / den))) := by
  generalize hk : FP.excess (num / den) = k
  have hscale : 0 < 2 ^ k * den := Nat.mul_pos (Nat.two_pow_pos k) hden
  have hdiv : num / (2 ^ k * den) = num / den / 2 ^ k := by rw [Nat.mul_comm, Nat.div_div_eq_div_mul]
  rw [Nat.mul_comm den]
  have hlt : num / (2 ^ k * den) < 2 ^ 53 := by
    rw [hdiv, Nat.div_lt_iff_lt_mul (Nat.two_pow_pos k), ← hk]
    exact FP.lt_two_pow_excess _
  have hnormal : k = 0 ∨ 2 ^ 52 * 2 ^ k ≤ num / den := by
    subst hk
    exact or_iff_not_imp_left.mpr FP.two_pow_excess_le
  exact
    { le := (FP.nearest_le_div_add_one _ _).trans hlt
      normal := hnormal.imp_right fun h =>
        ⟨((Nat.le_div_iff_mul_le (Nat.two_pow_pos k)).mpr h).trans (hdiv ▸ FP.div_le_nearest _ _),
          (Nat.le_div_iff_mul_le hden).mp h⟩
      lower := (FP.nearest_lower hscale).1
      upper := (FP.nearest_upper hscale).1
      evenUp := (FP.nearest_lower hscale).2
      evenDown := (FP.nearest_upper hscale).2 }

/-- A magnitude that is no multiple of `2^k` lies below the significands that are normal at `k`. -/
theorem FP.mag_lt_of_not_dvd {q : Long} {k : Nat} (h : ¬ 2 ^ k ∣ FP.mag q) : FP.mag q < 2 ^ 52 * 2 ^ k := by
  obtain ⟨j, c, -, hc, -, hmag⟩ := FP.exists_mag_eq q
  rw [hmag] at h ⊢
  have hjk : j + 1 ≤ k := by
    by_contra hle
    exact h (Dvd.dvd.mul_left (Nat.pow_dvd_pow 2 (by omega)) c)
  calc c * 2 ^ j < 2 ^ 53 * 2 ^ j := Nat.mul_lt_mul_of_pos_right hc (Nat.two_pow_pos j)
    _ = 2 ^ 52 * 2 ^ (j + 1) := by ring
    _ ≤ 2 ^ 52 * 2 ^ k := Nat.mul_le_mul_left _ (Nat.pow_le_pow_right Nat.two_pos hjk)

section Rounded

variable {num den k n : Nat}

/-- A finite magnitude above the rounded one is a multiple of its unit, the next one or beyond. -/
theorem FP.Rounded.above (h : FP.Rounded num den k n) {q : Long} (hq : n * 2 ^ k < FP.mag q) :
    2 ^ k ∣ FP.mag q ∧ (2 * n + 1) * 2 ^ k ≤ n * 2 ^ k + FP.mag q := by
  have hdvd : 2 ^ k ∣ FP.mag q := by
    by_contra hnot
    have hlt := FP.mag_lt_of_not_dvd hnot
    rcases h.normal with rfl | ⟨hn, -⟩
    · exact hnot (by simp)
    · exact absurd (Nat.mul_le_mul_right (2 ^ k) hn) (by omega)
  obtain ⟨z, hz⟩ := hdvd
  refine ⟨⟨z, hz⟩, ?_⟩
  rw [hz, Nat.mul_comm _ z] at hq ⊢
  have hnz : n < z := Nat.lt_of_mul_lt_mul_right hq
  calc (2 * n + 1) * 2 ^ k ≤ (n + z) * 2 ^ k := Nat.mul_le_mul_right _ (by omega)
    _ = n * 2 ^ k + z * 2 ^ k := Nat.add_mul ..

/-- A finite magnitude below the rounded one is a multiple of its unit, the one before or beyond; or it is finer, and
lies strictly below a number that is nearer. -/
theorem FP.Rounded.below (h : FP.Rounded num den k n) (hden : 0 < den) {q : Long} (hq : FP.mag q < n * 2 ^ k) :
    (2 ^ k ∣ FP.mag q ∧ n * 2 ^ k + FP.mag q + 2 ^ k ≤ 2 * n * 2 ^ k) ∨
      (n * 2 ^ k + FP.mag q) * den < 2 * num := by
  by_cases hdvd : 2 ^ k ∣ FP.mag q
  case pos =>
    obtain ⟨z, hz⟩ := hdvd
    refine .inl ⟨⟨z, hz⟩, ?_⟩
    rw [hz, Nat.mul_comm _ z] at hq ⊢
    have hzn : z < n := Nat.lt_of_mul_lt_mul_right hq
    calc n * 2 ^ k + z * 2 ^ k + 2 ^ k = (n + z + 1) * 2 ^ k := by ring
      _ ≤ 2 * n * 2 ^ k := Nat.mul_le_mul_right _ (by omega)
  case neg =>
    right
    have hlt := FP.mag_lt_of_not_dvd hdvd
    rcases h.normal with rfl | ⟨hn, hnum⟩
    · exact absurd (by simp) hdvd
    have hfine : FP.mag q * den < 2 ^ 52 * 2 ^ k * den := Nat.mul_lt_mul_of_pos_right hlt hden
    rcases hn.eq_or_lt with rfl | hn
    · rw [Nat.add_mul]
      omega
    · have hstep : (2 ^ 52 + 1) * 2 ^ k * den ≤ n * 2 ^ k * den := by gcongr; exact hn
      have hlower := h.lower
      have e1 : 2 * n * (2 ^ k * den) = 2 * (n * 2 ^ k * den) := by ring
      have e2 : (2 ^ 52 + 1) * 2 ^ k * den = 2 ^ 52 * 2 ^ k * den + 2 ^ k * den := by ring
      rw [Nat.add_mul]
      omega

/-- A finite magnitude above the rounded one is at least as far from the exact one. -/
theorem FP.Rounded.le_of_lt_mag (h : FP.Rounded num den k n) {q : Long} (hq : n * 2 ^ k < FP.mag q) :
    2 * num ≤ (n * 2 ^ k + FP.mag q) * den :=
  calc 2 * num ≤ (2 * n + 1) * (2 ^ k * den) := h.upper
    _ = (2 * n + 1) * 2 ^ k * den := (Nat.mul_assoc ..).symm
    _ ≤ (n * 2 ^ k + FP.mag q) * den := Nat.mul_le_mul_right den (h.above hq).2

/-- A finite magnitude below the rounded one is at least as far from the exact one. -/
theorem FP.Rounded.le_of_mag_lt (h : FP.Rounded num den k n) (hden : 0 < den) {q : Long}
    (hq : FP.mag q < n * 2 ^ k) : (n * 2 ^ k + FP.mag q) * den ≤ 2 * num := by
  rcases h.below hden hq with ⟨-, hle⟩ | hlt
  · have hmul := (Nat.mul_le_mul_right den hle).trans_eq (Nat.mul_assoc ..)
    have hlower := h.lower
    rw [Nat.add_mul] at hmul
    omega
  · exact hlt.le

/-- Where another finite magnitude is as near, the significand is even, and both are multiples of its unit. -/
theorem FP.Rounded.tie (h : FP.Rounded num den k n) (hden : 0 < den) {q : Long} (hq : FP.mag q ≠ n * 2 ^ k)
    (htie : (n * 2 ^ k + FP.mag q) * den = 2 * num) : n % 2 = 0 ∧ 2 ^ k ∣ n * 2 ^ k + FP.mag q := by
  rcases hq.lt_or_gt with hlt | hgt
  · rcases h.below hden hlt with ⟨hdvd, hle⟩ | hne
    · have hmul := (Nat.mul_le_mul_right den hle).trans_eq (Nat.mul_assoc ..)
      have hlower := h.lower
      rw [Nat.add_mul] at hmul
      exact ⟨h.evenUp (by omega), Nat.dvd_add (Nat.dvd_mul_left ..) hdvd⟩
    · exact absurd htie hne.ne
  · obtain ⟨hdvd, hle⟩ := h.above hgt
    have hmul := (Nat.mul_le_mul_right den hle).trans' (Nat.mul_assoc ..).ge
    exact ⟨h.evenDown (h.upper.antisymm (hmul.trans_eq htie)), Nat.dvd_add (Nat.dvd_mul_left ..) hdvd⟩

theorem FP.overflowHalf_eq : FP.overflowHalf = (2 * 2 ^ 53 - 1) * 2 ^ 2045 := by
  rw [FP.overflowHalf, Nat.sub_mul, Nat.one_mul, ← Nat.pow_succ', ← Nat.pow_add]

theorem FP.two_mul_two_pow_le {j k : Nat} (h : j < k) (d : Nat) : 2 * (2 ^ j * d) ≤ 2 ^ k * d := by
  rw [← Nat.mul_assoc, ← Nat.pow_succ']
  exact Nat.mul_le_mul_right d (Nat.pow_le_pow_right Nat.two_pos h)

/-- The rounded bits reach an infinity's from halfway between the greatest finite magnitude and 2^1024 on (R261). -/
theorem FP.Rounded.infBits_le_iff (h : FP.Rounded num den k n) (hden : 0 < den) :
    FP.infBits ≤ k * 2 ^ 52 + n ↔ FP.overflowHalf * den ≤ 2 * num := by
  have hn := h.le
  rw [FP.overflowHalf_eq, FP.infBits, Nat.mul_assoc]
  have hK : 0 < 2 ^ 2045 * den := by positivity
  rcases Nat.lt_trichotomy k 2045 with hlt | rfl | hgt
  case inl =>
    have hscale := FP.two_mul_two_pow_le hlt den
    have hnum : 2 * num ≤ (2 * 2 ^ 53 + 1) * (2 ^ k * den) :=
      h.upper.trans (Nat.mul_le_mul_right _ (by omega))
    generalize 2 ^ 2045 * den = K at *
    omega
  case inr.inl =>
    have hlower := h.lower
    have heven := h.evenDown
    have hupper : 2 * num ≤ (2 * n + 1) * (2 ^ 2045 * den) := h.upper
    generalize 2 ^ 2045 * den = K at *
    rcases hn.eq_or_lt with rfl | hn
    · omega
    refine iff_of_false (by omega) fun hover => ?_
    have hle : (2 * n + 1) * K ≤ (2 * 2 ^ 53 - 1) * K := Nat.mul_le_mul_right K (by omega)
    have hodd : 2 * n + 1 = 2 * 2 ^ 53 - 1 :=
      Nat.eq_of_mul_eq_mul_right hK (hle.antisymm (hover.trans hupper))
    have hzero := heven (hupper.antisymm (hle.trans hover))
    omega
  case inr.inr =>
    obtain ⟨hn52, hnum⟩ := h.normal.resolve_left (by omega)
    have hscale := FP.two_mul_two_pow_le hgt den
    rw [Nat.mul_assoc] at hnum
    generalize 2 ^ 2045 * den = K at *
    omega

end Rounded

/-! ## The rounded pattern -/

section Round

variable {num den : Nat} (neg : Bool)

theorem FP.roundBits_le (num den : Nat) : FP.roundBits num den ≤ FP.infBits := Nat.min_le_right ..

theorem FP.roundBits_lt (num den : Nat) : FP.roundBits num den < 2 ^ 63 :=
  (FP.roundBits_le num den).trans_lt (by decide)

@[simp] theorem FP.sign_round (num den : Nat) : FP.sign (FP.round neg num den) = neg :=
  FP.sign_pack neg (FP.roundBits_lt num den)

@[simp] theorem FP.magBits_round (num den : Nat) : FP.magBits (FP.round neg num den) = FP.roundBits num den :=
  FP.magBits_pack neg (FP.roundBits_lt num den)

theorem FP.isNan_round (num den : Nat) : FP.isNan (FP.round neg num den) = false := by
  rw [FP.isNan_eq, FP.magBits_round, decide_eq_false_iff_not, Nat.not_lt]
  exact FP.roundBits_le num den

theorem FP.isInf_round_iff (hden : 0 < den) :
    FP.isInf (FP.round neg num den) = true ↔ FP.overflowHalf * den ≤ 2 * num := by
  rw [FP.isInf_eq, FP.magBits_round, decide_eq_true_eq, ← (FP.rounded_nearest hden).infBits_le_iff hden]
  exact min_eq_right_iff

theorem FP.isFinite_round_iff (hden : 0 < den) :
    FP.isFinite (FP.round neg num den) = true ↔ 2 * num < FP.overflowHalf * den := by
  rw [FP.isFinite_eq, FP.magBits_round, decide_eq_true_eq, ← Nat.not_le, ← Nat.not_le,
    ← (FP.rounded_nearest hden).infBits_le_iff hden, FP.roundBits, Nat.le_min, and_iff_left le_rfl]

/-- A finite rounded pattern has the rounded significand and exponent. -/
theorem FP.round_of_isFinite (hden : 0 < den) (hfin : FP.isFinite (FP.round neg num den) = true) :
    ∃ n, FP.Rounded num den (FP.excess (num / den)) n ∧
      FP.mag (FP.round neg num den) = n * 2 ^ FP.excess (num / den) ∧
      FP.frac (FP.round neg num den) % 2 = n % 2 := by
  have hr := FP.rounded_nearest (num := num) hden
  have hbits : FP.magBits (FP.round neg num den) =
      FP.excess (num / den) * 2 ^ 52 + FP.nearest num (den * 2 ^ FP.excess (num / den)) := by
    rw [FP.isFinite_eq, decide_eq_true_eq] at hfin
    rw [FP.magBits_round] at hfin ⊢
    exact min_eq_left ((min_lt_iff.mp hfin).resolve_right (lt_irrefl _)).le
  refine ⟨_, hr, FP.mag_of_magBits hbits hr.le (hr.normal.imp_right And.left), ?_⟩
  rw [FP.frac_eq, hbits]
  omega

/-- `FP.round` is correct rounding to nearest, ties to even (R261). -/
theorem FP.isNearest_round (hden : 0 < den) : FP.IsNearest neg num den (FP.round neg num den) where
  sign := FP.sign_round neg num den
  notNan := FP.isNan_round neg num den
  overflow := FP.isInf_round_iff neg hden
  nearest hfin q _ := by
    obtain ⟨n, hr, hmag, -⟩ := FP.round_of_isFinite neg hden hfin
    rw [hmag]
    rcases Nat.lt_trichotomy (FP.mag q) (n * 2 ^ FP.excess (num / den)) with hlt | heq | hgt
    case inl =>
      have hle := hr.le_of_mag_lt hden hlt
      have hmul := Nat.mul_lt_mul_of_pos_right hlt hden
      rw [Nat.add_mul] at hle
      omega
    case inr.inl => rw [heq]
    case inr.inr =>
      have hle := hr.le_of_lt_mag hgt
      have hmul := Nat.mul_lt_mul_of_pos_right hgt hden
      rw [Nat.add_mul] at hle
      omega
  even hfin q _ hne htie := by
    obtain ⟨n, hr, hmag, hfrac⟩ := FP.round_of_isFinite neg hden hfin
    rw [hmag] at hne htie
    have hmul : FP.mag q * den ≠ n * 2 ^ FP.excess (num / den) * den :=
      fun h => hne (Nat.eq_of_mul_eq_mul_right hden h)
    have hmid : (n * 2 ^ FP.excess (num / den) + FP.mag q) * den = 2 * num := by
      rw [Nat.add_mul]
      omega
    rw [hfrac]
    exact (hr.tie hden hne hmid).1

end Round

/-! ## Exact results -/

/-- `m` is the magnitude of a finite pattern: below the overflow threshold, and a multiple of a power of two with at
most 53 bits above it (2^53 itself included). -/
def FP.Representable (m : Nat) : Prop :=
  2 * m < FP.overflowHalf ∧ ∃ e, 2 ^ e ∣ m ∧ m ≤ 2 ^ 53 * 2 ^ e

/-- The unit to which a representable magnitude is rounded divides it. -/
theorem FP.Representable.two_pow_excess_dvd {m : Nat} (h : FP.Representable m) : 2 ^ FP.excess m ∣ m := by
  obtain ⟨-, e, hdvd, hle⟩ := h
  rcases Nat.lt_or_ge e (FP.excess m) with hlt | hge
  case inl =>
    have hm_ge := FP.two_pow_excess_le (Nat.ne_zero_of_lt hlt)
    have hm_le : m ≤ 2 ^ 52 * 2 ^ FP.excess m :=
      calc m ≤ 2 ^ 53 * 2 ^ e := hle
        _ = 2 ^ 52 * 2 ^ (e + 1) := by ring
        _ ≤ 2 ^ 52 * 2 ^ FP.excess m := Nat.mul_le_mul_left _ (Nat.pow_le_pow_right Nat.two_pos hlt)
    exact ⟨2 ^ 52, (hm_le.antisymm hm_ge).trans (Nat.mul_comm ..)⟩
  case inr => exact (Nat.pow_dvd_pow 2 hge).trans hdvd

/-- A representable magnitude is rounded to itself. -/
theorem FP.Representable.round {m : Nat} (h : FP.Representable m) (neg : Bool) :
    FP.isFinite (FP.round neg m 1) = true ∧ FP.mag (FP.round neg m 1) = m := by
  have hfin := (FP.isFinite_round_iff neg Nat.one_pos).mpr (h.1.trans_eq (Nat.mul_one _).symm)
  obtain ⟨n, hr, hmag, -⟩ := FP.round_of_isFinite neg Nat.one_pos hfin
  obtain ⟨z, hz⟩ := h.two_pow_excess_dvd
  have hlower := hr.lower
  have hupper := hr.upper
  rw [Nat.div_one] at hmag hlower hupper
  have hK := Nat.two_pow_pos (FP.excess m)
  generalize 2 ^ FP.excess m = K at hmag hz hlower hupper hK
  subst hz
  have hle : 2 * n ≤ 2 * z + 1 := by
    refine Nat.le_of_mul_le_mul_right (c := K) ?_ hK
    linarith
  have hge : 2 * z ≤ 2 * n + 1 := by
    refine Nat.le_of_mul_le_mul_right (c := K) ?_ hK
    linarith
  refine ⟨hfin, ?_⟩
  rw [hmag, show n = z by omega, Nat.mul_comm]

theorem FP.two_mul_lt_overflowHalf {m : Nat} (h : m ≤ FP.greatest) : 2 * m < FP.overflowHalf := by
  refine (Nat.mul_le_mul_left 2 h).trans_lt ?_
  rw [FP.overflowHalf_eq, FP.greatest, ← Nat.mul_assoc]
  gcongr
  decide

theorem FP.representable_mag {p : Long} (h : FP.isFinite p = true) : FP.Representable (FP.mag p) := by
  obtain ⟨k, q, -, hq, -, hmag⟩ := FP.exists_mag_eq p
  refine ⟨FP.two_mul_lt_overflowHalf (FP.mag_le_of_isFinite h), k, ?_⟩
  rw [hmag]
  exact ⟨Nat.dvd_mul_left .., Nat.mul_le_mul_right _ hq.le⟩

/-- A remainder is a multiple of the finer of the two units, at most the dividend and below the divisor. -/
theorem FP.Representable.mod {m n : Nat} (hm : FP.Representable m) (hn : FP.Representable n) (hpos : 0 < n) :
    FP.Representable (m % n) := by
  have hmod_le := Nat.mod_le m n
  have hmod_lt := Nat.mod_lt m hpos
  obtain ⟨hlt, i, hi, hmi⟩ := hm
  obtain ⟨-, j, hj, hnj⟩ := hn
  refine ⟨by omega, ?_⟩
  rcases Nat.le_total i j with hij | hji
  · exact ⟨i, (Nat.dvd_mod_iff ((Nat.pow_dvd_pow 2 hij).trans hj)).mpr hi, by omega⟩
  · exact ⟨j, (Nat.dvd_mod_iff hj).mpr ((Nat.pow_dvd_pow 2 hji).trans hi), by omega⟩

/-- The multiples of `2^e` next to a finite magnitude are magnitudes of finite patterns. -/
theorem FP.representable_multiple {p : Long} (h : FP.isFinite p = true) {n e : Nat} (he : e < 2045)
    (hup : n * 2 ^ e < FP.mag p + 2 ^ e) (hdown : FP.mag p < (n + 1) * 2 ^ e) : FP.Representable (n * 2 ^ e) := by
  have hE := Nat.two_pow_pos e
  obtain ⟨k, q, -, hq, -, hmag⟩ := FP.exists_mag_eq p
  rcases Nat.lt_or_ge k e with hlt | hge
  case inl =>
    have hmag_lt : FP.mag p < 2 ^ 53 * 2 ^ e := by
      rw [hmag]
      exact Nat.mul_lt_mul_of_lt_of_le hq (Nat.pow_le_pow_right Nat.two_pos hlt.le) hE
    have hn : n ≤ 2 ^ 53 := by
      refine Nat.le_of_lt_succ (Nat.lt_of_mul_lt_mul_right (a := 2 ^ e) ?_)
      rw [Nat.succ_mul]
      omega
    have hle := Nat.mul_le_mul_right (2 ^ e) hn
    refine ⟨FP.two_mul_lt_overflowHalf ?_, e, Nat.dvd_mul_left .., hle⟩
    calc n * 2 ^ e ≤ 2 ^ 53 * 2 ^ e := hle
      _ = 2 ^ 52 * 2 ^ (e + 1) := by ring
      _ ≤ FP.greatest := by
        rw [FP.greatest]
        gcongr
        · decide
        · decide
        · exact he
  case inr =>
    obtain ⟨z, hz⟩ : 2 ^ e ∣ FP.mag p := hmag ▸ (Nat.pow_dvd_pow 2 hge).mul_left q
    rw [Nat.mul_comm] at hz
    rw [hz] at hup hdown
    rw [← Nat.succ_mul] at hup
    have hnz : n = z :=
      (Nat.le_of_lt_succ (Nat.lt_of_mul_lt_mul_right hup)).antisymm
        (Nat.le_of_lt_succ (Nat.lt_of_mul_lt_mul_right hdown))
    rw [hnz, ← hz]
    exact FP.representable_mag h

theorem FP.unitsPerOne_pos : 0 < FP.unitsPerOne := by
  rw [FP.unitsPerOne]
  positivity

/-- The whole numbers next to a finite magnitude are exact. -/
theorem FP.representable_whole {p : Long} (h : FP.isFinite p = true) {n : Nat}
    (hup : n * FP.unitsPerOne < FP.mag p + FP.unitsPerOne) (hdown : FP.mag p < (n + 1) * FP.unitsPerOne) :
    FP.Representable (n * FP.unitsPerOne) := by
  rw [FP.unitsPerOne] at *
  exact FP.representable_multiple h (by decide) hup hdown

end Sys2Proof.Machine
end

section
/-! Proofs of the statements about the floating-point instructions (45_float.md). An instruction of this family ends in
`State.writeF` or `State.writeFp`; each operation of the default record is a rounding of its exact result, or one of the
special cases of R261 and R263. -/

namespace Sys2Proof.Machine

/-! ## Instructions that end in the write of a pattern (R261, R264) -/

/-- The instruction writes `u`, which is the `v` of a statement. -/
theorem exec_writesF {i : Instr} {s : State} {fa : Reg} {u v : Long} (h : exec i s = s.writeF fa u) (huv : u = v) :
    ∃ t, exec i s = .next t ∧ WritesF s t fa v := by
  subst huv
  exact ⟨_, h, s.writesF_setF fa u⟩

/-- Some NaN goes to `f[fa]`, one free value is drawn, and the rest of the state is left as it was. -/
theorem State.writesNan_setF (s : State) (fa : Reg) {v : Long} (h : FP.isNan v = true) :
    WritesNan s (s.setF fa v).bumpDraws.advance fa := by
  obtain ⟨⟨⟨hx, hf⟩, hmem, hsystem, houtside⟩, hresult, -, -⟩ := s.writesF_setF fa v
  exact
    { only :=
        { regs := ⟨hx, hf⟩
          mem := hmem
          system := ⟨rfl, rfl, rfl, rfl, rfl, rfl, rfl, rfl⟩
          outside := ⟨rfl, rfl, rfl, rfl⟩ }
      result := (congrArg FP.isNan hresult).trans h
      pc := rfl
      draws := rfl }

/-- An instruction that ends in the write of a result, a number or some NaN (R261). -/
theorem exec_writesFp {i : Instr} {s : State} {fa : Reg} {r : Option Long} (h : exec i s = s.writeFp fa r) :
    ∃ t, exec i s = .next t ∧ WritesFp s t fa r := by
  cases r with
  | some v => exact ⟨_, h, s.writesF_setF fa v⟩
  | none => exact ⟨_, h, s.writesNan_setF fa (FP.isNan_anyNan _)⟩

/-- Settles O33: each of the eight ends in `State.writeFp`. -/
theorem floatArithmeticCompletes : Obligations.FloatArithmeticCompletes := by
  intro s fa fb fc b c
  refine ⟨exec_writesFp rfl, exec_writesFp rfl, exec_writesFp rfl, exec_writesFp rfl, exec_writesFp rfl,
    exec_writesFp rfl, exec_writesFp rfl, exec_writesFp rfl, fun h => ?_⟩
  rw [State.fp_binary64 h]
  exact ⟨rfl, rfl, rfl, rfl, rfl, rfl, rfl, rfl⟩

/-- What a member of the record in force gives depends on the setting and the operand alone. -/
theorem dependsOnOperand_of_exec {i : Reg → Reg → Instr} (g : FpRecord → Long → Long)
    (h : ∀ s fa fb, exec (i fa fb) s = s.writeF fa (g s.fp (s.readF fb))) : DependsOnOperand i := fun c =>
  ⟨g (FP.ofSetting c), fun s fa fb hc => exec_writesF (h s fa fb) (by rw [State.fp, hc])⟩

/-- Settles O38: each of the ten writes a member of the record in force. -/
theorem elementaryFunctionsAreFunctions : Obligations.ElementaryFunctionsAreFunctions := by
  refine ⟨fun c => ⟨(FP.ofSetting c).pow, fun s fa fb fc hc => exec_writesF rfl ?_⟩,
    dependsOnOperand_of_exec FpRecord.log fun _ _ _ => rfl, dependsOnOperand_of_exec FpRecord.log10 fun _ _ _ => rfl,
    dependsOnOperand_of_exec FpRecord.exp fun _ _ _ => rfl, dependsOnOperand_of_exec FpRecord.sin fun _ _ _ => rfl,
    dependsOnOperand_of_exec FpRecord.cos fun _ _ _ => rfl, dependsOnOperand_of_exec FpRecord.tan fun _ _ _ => rfl,
    dependsOnOperand_of_exec FpRecord.asin fun _ _ _ => rfl, dependsOnOperand_of_exec FpRecord.acos fun _ _ _ => rfl,
    dependsOnOperand_of_exec FpRecord.atan fun _ _ _ => rfl⟩
  rw [State.fp, hc]

/-! ## Comparisons (R262) -/

theorem FP.ordered_iff (b c : Long) : FP.ordered b c = true ↔ FP.isNan b = false ∧ FP.isNan c = false := by
  simp [FP.ordered]

theorem FP.eq_iff (b c : Long) :
    FP.eq b c = true ↔ (FP.isNan b = false ∧ FP.isNan c = false) ∧ FP.value b = FP.value c := by
  rw [FP.eq, Bool.and_eq_true, FP.ordered_iff, decide_eq_true_eq]

theorem FP.lt_iff (b c : Long) :
    FP.lt b c = true ↔ (FP.isNan b = false ∧ FP.isNan c = false) ∧ FP.value b < FP.value c := by
  rw [FP.lt, Bool.and_eq_true, FP.ordered_iff, decide_eq_true_eq]

theorem FP.le_iff (b c : Long) :
    FP.le b c = true ↔ (FP.isNan b = false ∧ FP.isNan c = false) ∧ FP.value b ≤ FP.value c := by
  rw [FP.le, Bool.and_eq_true, FP.ordered_iff, decide_eq_true_eq]

theorem FP.ne_iff_not_eq (b c : Long) : FP.ne b c = true ↔ ¬ FP.eq b c = true := by
  rw [FP.ne, Bool.not_eq_true', Bool.not_eq_true]

/-- The infinities' values lie beyond every finite one. -/
theorem FP.value_between_infinities {p : Long} (hp : FP.isFinite p = true) :
    FP.value 0xFFF0000000000000#64 < FP.value p ∧ FP.value p < FP.value 0x7FF0000000000000#64 := by
  have hneg := FP.mag_lt_of_isFinite (q := 0xFFF0000000000000#64) hp (by decide)
  have hpos := FP.mag_lt_of_isFinite (q := 0x7FF0000000000000#64) hp (by decide)
  rw [← FP.natAbs_value p] at hneg hpos
  rw [FP.value_of_sign (p := 0xFFF0000000000000#64) (by decide),
    FP.value_of_not_sign (p := 0x7FF0000000000000#64) (by decide)]
  omega

/-- Settles O37: `FP.gt` and `FP.ge` are `FP.lt` and `FP.le` with the operands exchanged. -/
theorem floatComparisonsWriteOneOrZero : Obligations.FloatComparisonsWriteOneOrZero := by
  refine ⟨fun s fa fb fc => ⟨exec_writesF rfl rfl, exec_writesF rfl rfl, exec_writesF rfl rfl, exec_writesF rfl rfl,
    exec_writesF rfl rfl, exec_writesF rfl rfl⟩, fun s b c h => ?compare, by decide,
    fun _ => FP.value_between_infinities⟩
  case compare =>
    rw [State.fp_binary64 h]
    refine ⟨FP.eq_iff b c, ?ne, FP.lt_iff b c, ?gt, FP.le_iff b c, ?ge⟩
    case ne => exact (FP.ne_iff_not_eq b c).trans (FP.eq_iff b c).not
    case gt => exact (FP.lt_iff c b).trans (and_congr_left' and_comm)
    case ge => exact (FP.le_iff c b).trans (and_congr_left' and_comm)

/-! ## The arithmetic of finite operands -/

section FiniteOperands

variable {a b : Long}

theorem FP.add_of_isFinite (ha : FP.isFinite a = true) (hb : FP.isFinite b = true) :
    FP.add a b = some (if FP.value a + FP.value b = 0 then FP.zero (FP.sign a && FP.sign b)
      else FP.round (decide (FP.value a + FP.value b < 0)) (FP.value a + FP.value b).natAbs 1) := by
  simp [FP.add, FP.isNan_of_isFinite, FP.isInf_of_isFinite, ha, hb, apply_ite some]

/-- Subtraction adds the second operand with its sign inverted, a NaN included. -/
theorem FP.sub_eq_add_neg (a b : Long) : FP.sub a b = FP.add a (FP.neg b) := by
  unfold FP.sub
  split
  case isTrue h => simp [FP.add, FP.isNan_neg, h]
  case isFalse => rfl

theorem FP.mul_of_isFinite (ha : FP.isFinite a = true) (hb : FP.isFinite b = true) :
    FP.mul a b = some (FP.round (FP.sign a != FP.sign b) (FP.mag a * FP.mag b) FP.unitsPerOne) := by
  simp [FP.mul, FP.isNan_of_isFinite, FP.isInf_of_isFinite, ha, hb]

theorem FP.div_of_isFinite (ha : FP.isFinite a = true) (hb : FP.isFinite b = true) (h : FP.isZero b = false) :
    FP.div a b = some (FP.round (FP.sign a != FP.sign b) (FP.mag a * FP.unitsPerOne) (FP.mag b)) := by
  simp [FP.div, FP.isNan_of_isFinite, FP.isInf_of_isFinite, ha, hb, h]

theorem FP.floor_of_isFinite (ha : FP.isFinite a = true) :
    FP.floor a = some (FP.ofWhole (FP.sign a) (if FP.sign a then FP.wholeUp a else FP.wholeDown a)) := by
  simp [FP.floor, FP.isNan_of_isFinite, FP.isInf_of_isFinite, ha]

theorem FP.ceil_of_isFinite (ha : FP.isFinite a = true) :
    FP.ceil a = some (FP.ofWhole (FP.sign a) (if FP.sign a then FP.wholeDown a else FP.wholeUp a)) := by
  simp [FP.ceil, FP.isNan_of_isFinite, FP.isInf_of_isFinite, ha]

theorem FP.fmod_of_isFinite (ha : FP.isFinite a = true) (hb : FP.isFinite b = true) (h : FP.isZero b = false) :
    FP.fmod a b = some (FP.round (FP.sign a) (FP.mag a % FP.mag b) 1) := by
  simp [FP.fmod, FP.isNan_of_isFinite, FP.isInf_of_isFinite, ha, hb, h]

end FiniteOperands

/-- A non-zero exact sum is rounded to nearest. -/
theorem FP.isNearest_add {a b : Long} (ha : FP.isFinite a = true) (hb : FP.isFinite b = true)
    (h : FP.value a + FP.value b ≠ 0) : ∃ p, FP.add a b = some p ∧
      FP.IsNearest (decide (FP.value a + FP.value b < 0)) (FP.value a + FP.value b).natAbs 1 p :=
  ⟨_, (FP.add_of_isFinite ha hb).trans (congrArg some (if_neg h)), FP.isNearest_round _ Nat.one_pos⟩

/-- Settles O34: each operation is one rounding of its exact result, the difference through the sum. -/
theorem floatOpsRoundToNearest : Obligations.FloatOpsRoundToNearest := by
  intro a b ha hb
  refine ⟨FP.isNearest_add ha hb, fun h => ?sub, ⟨_, FP.mul_of_isFinite ha hb, ?mul⟩,
    fun h => ⟨_, FP.div_of_isFinite ha hb h, ?div⟩⟩
  case sub =>
    have hsum := FP.isNearest_add ha ((FP.isFinite_neg b).trans hb)
    rw [FP.value_neg, ← Int.sub_eq_add_neg, ← FP.sub_eq_add_neg] at hsum
    exact hsum h
  case mul => exact FP.isNearest_round _ FP.unitsPerOne_pos
  case div => exact FP.isNearest_round _ (FP.mag_pos h)

/-! ## Special cases (R261) -/

section SpecialCases

variable {a b : Long}

theorem FP.add_of_isNan (h : FP.isNan a = true ∨ FP.isNan b = true) : FP.add a b = none := by
  rw [FP.add, if_pos (Bool.or_eq_true_iff.mpr h)]

theorem FP.sub_of_isNan (h : FP.isNan a = true ∨ FP.isNan b = true) : FP.sub a b = none := by
  rw [FP.sub_eq_add_neg]
  exact FP.add_of_isNan (h.imp_right (FP.isNan_neg b).trans)

theorem FP.mul_of_isNan (h : FP.isNan a = true ∨ FP.isNan b = true) : FP.mul a b = none :=
  if_pos (Bool.or_eq_true_iff.mpr h)

theorem FP.div_of_isNan (h : FP.isNan a = true ∨ FP.isNan b = true) : FP.div a b = none :=
  if_pos (Bool.or_eq_true_iff.mpr h)

theorem FP.sqrt_of_isNan (h : FP.isNan a = true) : FP.sqrt a = none := if_pos h

/-- A value below zero, the negative infinity's included, has a sign and is no zero. -/
theorem FP.sqrt_of_value_neg (hnan : FP.isNan a = false) (h : FP.value a < 0) : FP.sqrt a = none := by
  have hzero : FP.isZero a = false := by
    rw [← Bool.not_eq_true, ← FP.value_eq_zero_iff]
    exact h.ne
  have hsign : FP.sign a = true := by
    rw [← Bool.not_eq_false]
    intro hpos
    rw [FP.value_of_not_sign hpos] at h
    exact absurd h (Int.natCast_nonneg _).not_gt
  simp [FP.sqrt, hnan, hzero, hsign]

theorem FP.add_inf_opposite (ha : FP.isInf a = true) (hb : FP.isInf b = true) (h : FP.sign a ≠ FP.sign b) :
    FP.add a b = none := by
  simp [FP.add, FP.isNan_of_isInf, ha, hb, h]

theorem FP.sub_inf_same (ha : FP.isInf a = true) (hb : FP.isInf b = true) (h : FP.sign a = FP.sign b) :
    FP.sub a b = none := by
  rw [FP.sub_eq_add_neg]
  exact FP.add_inf_opposite ha ((FP.isInf_neg b).trans hb) (by simp [FP.sign_neg, h])

theorem FP.div_inf_inf (ha : FP.isInf a = true) (hb : FP.isInf b = true) : FP.div a b = none := by
  simp [FP.div, FP.isNan_of_isInf, ha, hb]

theorem FP.mul_zero_inf (ha : FP.isZero a = true) (hb : FP.isInf b = true) :
    FP.mul a b = none ∧ FP.mul b a = none := by
  have hnan := FP.isNan_of_isFinite (FP.isFinite_of_isZero ha)
  simp [FP.mul, FP.isNan_of_isInf, hnan, ha, hb]

theorem FP.div_of_isZero (ha : FP.isFinite a = true) (hb : FP.isZero b = true) :
    FP.div a b = if FP.isZero a then none else some (FP.inf (FP.sign a != FP.sign b)) := by
  have hfin := FP.isFinite_of_isZero hb
  simp [FP.div, FP.isNan_of_isFinite, FP.isInf_of_isFinite, ha, hb, hfin]

theorem FP.inf_sign_bne (s t : Bool) :
    FP.inf (s != t) = if s = t then 0x7FF0000000000000#64 else 0xFFF0000000000000#64 := by
  cases s <;> cases t <;> rfl

/-- An exact zero sum of operands of opposite sign is +0.0. -/
theorem FP.add_opposite_eq_zero (ha : FP.isFinite a = true) (hb : FP.isFinite b = true)
    (hsign : FP.sign a ≠ FP.sign b) (h : FP.value a + FP.value b = 0) : FP.add a b = some 0#64 := by
  have hand : (FP.sign a && FP.sign b) = false := by
    rw [Bool.and_eq_false_iff]
    cases hs : FP.sign a <;> simp_all
  rw [FP.add_of_isFinite ha hb, if_pos h, hand]
  rfl

theorem FP.sub_same_eq_zero (ha : FP.isFinite a = true) (hb : FP.isFinite b = true)
    (hsign : FP.sign a = FP.sign b) (h : FP.value a - FP.value b = 0) : FP.sub a b = some 0#64 := by
  rw [FP.sub_eq_add_neg]
  refine FP.add_opposite_eq_zero ha ((FP.isFinite_neg b).trans hb) ?_ ?_
  · simp [FP.sign_neg, hsign]
  · rwa [FP.value_neg, ← Int.sub_eq_add_neg]

end SpecialCases

/-- Settles O35, clause by clause. -/
theorem floatSpecialCases : Obligations.FloatSpecialCases := by
  refine ⟨fun a b h => ⟨FP.add_of_isNan h, FP.sub_of_isNan h, FP.mul_of_isNan h, FP.div_of_isNan h⟩,
    fun a h => h.elim FP.sqrt_of_isNan fun ⟨hnan, hneg⟩ => FP.sqrt_of_value_neg hnan hneg,
    fun a b ha hb => ⟨FP.add_inf_opposite ha hb, FP.sub_inf_same ha hb, FP.div_inf_inf ha hb⟩,
    fun a b ha => ⟨FP.mul_zero_inf ha, fun hb => ?zeroOverZero⟩,
    fun a b hfin ha hb => ?overZero,
    fun a b ha hb => ⟨FP.add_opposite_eq_zero ha hb, FP.sub_same_eq_zero ha hb⟩, ?negZeros, ?sqrtNegZero⟩
  case zeroOverZero => rw [FP.div_of_isZero (FP.isFinite_of_isZero ha) hb, if_pos ha]
  case overZero => rw [FP.div_of_isZero hfin hb, if_neg (Bool.eq_false_iff.mp ha), FP.inf_sign_bne]
  case negZeros =>
    have hfin : FP.isFinite 0x8000000000000000#64 = true := by decide
    rw [FP.add_of_isFinite hfin hfin, if_pos (by decide)]
    rfl
  case sqrtNegZero => rfl

/-! ## The integer square root -/

theorem FP.sqrtDigits_eq {n k s : Nat} (hlow : s * s ≤ n) (hhigh : n < (s + 2 ^ k) * (s + 2 ^ k)) :
    FP.sqrtDigits n k s = Nat.sqrt n := by
  induction k generalizing s with
  | zero => exact Nat.eq_sqrt.mpr ⟨hlow, hhigh⟩
  | succ k ih =>
    rw [FP.sqrtDigits]
    split
    case isTrue h =>
      refine ih h ?_
      rwa [Nat.add_assoc, ← Nat.two_mul, ← Nat.pow_succ']
    case isFalse h => exact ih hlow (Nat.lt_of_not_le h)

/-- `FP.isqrt` is the integer square root. -/
theorem FP.isqrt_eq_sqrt (n : Nat) : FP.isqrt n = Nat.sqrt n := by
  refine FP.sqrtDigits_eq (Nat.zero_le n) ?_
  rw [Nat.zero_add, ← Nat.pow_add]
  exact Nat.lt_log2_self.trans_le (Nat.pow_le_pow_right Nat.two_pos (by omega))

/-! ## Twice a square root -/

/-- Twice the integer square root, and one more where the root is not exact: the number that `FP.sqrt` rounds. -/
def FP.twiceRoot (n : Nat) : Nat :=
  2 * FP.isqrt n + (if FP.isqrt n * FP.isqrt n = n then 0 else 1)

theorem FP.twiceRoot_div_two (n : Nat) : FP.twiceRoot n / 2 = Nat.sqrt n := by
  rw [FP.twiceRoot, FP.isqrt_eq_sqrt]
  split <;> omega

/-- A number lies on the same side of twice the exact root as of `FP.twiceRoot`, which it may equal only where the root
is exact or the number is even. -/
theorem FP.twiceRoot_compare {n c : Nat} (heven : c = FP.twiceRoot n → c % 2 = 0) :
    (FP.twiceRoot n ≤ c → 4 * n ≤ c ^ 2) ∧ (c ≤ FP.twiceRoot n → c ^ 2 ≤ 4 * n) ∧
      (c ^ 2 = 4 * n → c = FP.twiceRoot n) := by
  have hle := Nat.sqrt_le n
  have hlt := Nat.lt_succ_sqrt n
  rw [FP.twiceRoot, FP.isqrt_eq_sqrt] at *
  generalize Nat.sqrt n = s at *
  split at heven
  case isTrue hs =>
    subst hs
    have hsq : 4 * (s * s) = (2 * s) ^ 2 := by ring
    rw [if_pos rfl, hsq, Nat.add_zero]
    exact ⟨fun h => Nat.pow_le_pow_left h 2, fun h => Nat.pow_le_pow_left h 2,
      fun h => Nat.pow_left_injective (Nat.succ_ne_zero 1) h⟩
  case isFalse hs =>
    rw [if_neg hs]
    have habove (h : 2 * s + 2 ≤ c) : 4 * n < c ^ 2 :=
      calc 4 * n < (2 * s + 2) ^ 2 := by linarith
        _ ≤ c ^ 2 := Nat.pow_le_pow_left h 2
    have hbelow (h : c ≤ 2 * s) : c ^ 2 < 4 * n :=
      calc c ^ 2 ≤ (2 * s) ^ 2 := Nat.pow_le_pow_left h 2
        _ = 4 * (s * s) := by ring
        _ < 4 * n := by omega
    have hside : c ≤ 2 * s ∨ 2 * s + 2 ≤ c := by omega
    rcases hside with h | h
    · exact ⟨by omega, fun _ => (hbelow h).le, fun e => absurd e (hbelow h).ne⟩
    · exact ⟨fun _ => (habove h).le, by omega, fun e => absurd e (habove h).ne'⟩

theorem FP.excess_pos {q : Nat} (h : 2 ^ 53 ≤ q) : 0 < FP.excess q :=
  Nat.sub_pos_of_lt ((Nat.le_log2 (by omega)).mpr h)

theorem FP.unitsPerOne_lt_greatest : FP.unitsPerOne < FP.greatest := by
  rw [FP.unitsPerOne, FP.greatest]
  calc 2 ^ 1074 < 2 ^ 2045 := by gcongr <;> decide
    _ ≤ (2 ^ 53 - 1) * 2 ^ 2045 := Nat.le_mul_of_pos_left _ (by decide)

section Sqrt

variable {a : Long}

/-- The root in units is large: the rounding of `FP.twiceRoot` drops the bit below it. -/
theorem FP.two_pow_le_sqrt (h : FP.isZero a = false) : 2 ^ 53 ≤ Nat.sqrt (FP.mag a * FP.unitsPerOne) := by
  rw [Nat.le_sqrt]
  calc 2 ^ 53 * 2 ^ 53 ≤ FP.unitsPerOne := by
        rw [FP.unitsPerOne, ← Nat.pow_add]
        gcongr <;> decide
    _ ≤ FP.mag a * FP.unitsPerOne := Nat.le_mul_of_pos_left _ (FP.mag_pos h)

theorem FP.twiceRoot_lt_overflowHalf (h : FP.isFinite a = true) :
    FP.twiceRoot (FP.mag a * FP.unitsPerOne) < FP.overflowHalf := by
  have hroot : Nat.sqrt (FP.mag a * FP.unitsPerOne) < FP.greatest :=
    Nat.sqrt_lt.mpr (Nat.mul_lt_mul_of_le_of_lt (FP.mag_le_of_isFinite h) FP.unitsPerOne_lt_greatest
      (Nat.zero_lt_of_lt FP.unitsPerOne_lt_greatest))
  have hbound := FP.two_mul_lt_overflowHalf le_rfl
  rw [← FP.twiceRoot_div_two] at hroot
  omega

theorem FP.sqrt_of_pos (hfin : FP.isFinite a = true) (hsign : FP.sign a = false) (hzero : FP.isZero a = false) :
    FP.sqrt a = some (FP.round false (FP.twiceRoot (FP.mag a * FP.unitsPerOne)) 2) := by
  simp [FP.sqrt, FP.isNan_of_isFinite hfin, FP.isInf_of_isFinite hfin, hsign, hzero, FP.twiceRoot]

end Sqrt

/-- Settles O36: what is as near to `FP.twiceRoot` as the rounded root is a multiple of its unit, hence even, so that
`FP.twiceRoot_compare` carries the nearness over to the exact root. -/
theorem squareRootRoundsToNearest : Obligations.SquareRootRoundsToNearest := by
  intro a hfin hsign hzero n
  have hp : FP.isFinite (FP.round false (FP.twiceRoot n) 2) = true := by
    rw [FP.isFinite_round_iff false Nat.two_pos, Nat.mul_comm 2]
    exact Nat.mul_lt_mul_of_pos_right (FP.twiceRoot_lt_overflowHalf hfin) Nat.two_pos
  obtain ⟨m, hr, hmag, hfrac⟩ := FP.round_of_isFinite false Nat.two_pos hp
  have hexcess : 0 < FP.excess (FP.twiceRoot n / 2) := by
    rw [FP.twiceRoot_div_two]
    exact FP.excess_pos (FP.two_pow_le_sqrt hzero)
  generalize FP.excess (FP.twiceRoot n / 2) = k at hr hmag hexcess
  refine ⟨_, FP.sqrt_of_pos hfin hsign hzero, FP.sign_round .., hp, fun q _ => ?_⟩
  rw [hmag, hfrac]
  have htie (hne : FP.mag q ≠ m * 2 ^ k) (h : m * 2 ^ k + FP.mag q = FP.twiceRoot n) :=
    hr.tie Nat.two_pos hne (by rw [h, Nat.mul_comm])
  have hcompare (hne : FP.mag q ≠ m * 2 ^ k) :=
    FP.twiceRoot_compare fun h : m * 2 ^ k + FP.mag q = FP.twiceRoot n =>
      Nat.mod_eq_zero_of_dvd ((Dvd.intro_left _ (Nat.pow_pred_mul hexcess)).trans (htie hne h).2)
  refine ⟨fun hlt => (hcompare hlt.ne').1 ?above, fun hgt => (hcompare hgt.ne).2.1 ?below, fun hne he => ?even⟩
  case above =>
    have hle := hr.le_of_lt_mag hlt
    omega
  case below =>
    have hle := hr.le_of_mag_lt Nat.two_pos hgt
    omega
  case even => exact (htie hne ((hcompare hne).2.2 he)).1

/-! ## Whole numbers and remainders (R263) -/

section Whole

variable {p : Long}

theorem FP.wholeDown_bounds (p : Long) : FP.wholeDown p * FP.unitsPerOne ≤ FP.mag p ∧
    FP.mag p < FP.wholeDown p * FP.unitsPerOne + FP.unitsPerOne :=
  ⟨Nat.div_mul_le_self .., Nat.lt_div_mul_add FP.unitsPerOne_pos⟩

theorem FP.wholeUp_bounds (p : Long) : FP.mag p ≤ FP.wholeUp p * FP.unitsPerOne ∧
    FP.wholeUp p * FP.unitsPerOne < FP.mag p + FP.unitsPerOne := by
  have hU := FP.unitsPerOne_pos
  have hle := Nat.div_mul_le_self (FP.mag p + (FP.unitsPerOne - 1)) FP.unitsPerOne
  have hlt := Nat.lt_div_mul_add (a := FP.mag p + (FP.unitsPerOne - 1)) hU
  rw [FP.wholeUp]
  omega

theorem FP.representable_wholeDown (h : FP.isFinite p = true) :
    FP.Representable (FP.wholeDown p * FP.unitsPerOne) := by
  have hU := FP.unitsPerOne_pos
  obtain ⟨hle, hlt⟩ := FP.wholeDown_bounds p
  exact FP.representable_whole h (by omega) (by rwa [Nat.succ_mul])

theorem FP.representable_wholeUp (h : FP.isFinite p = true) :
    FP.Representable (FP.wholeUp p * FP.unitsPerOne) := by
  have hU := FP.unitsPerOne_pos
  obtain ⟨hle, hlt⟩ := FP.wholeUp_bounds p
  refine FP.representable_whole h hlt ?_
  rw [Nat.succ_mul]
  omega

theorem FP.fdiv_mag (p : Long) : (FP.mag p : Int).fdiv FP.unitsPerOne = FP.wholeDown p := by
  rw [Int.fdiv_eq_ediv_of_nonneg _ (Int.natCast_nonneg _)]
  rfl

theorem FP.fdiv_neg_mag (p : Long) : (-(FP.mag p : Int)).fdiv FP.unitsPerOne = -FP.wholeUp p := by
  obtain ⟨hle, hlt⟩ := FP.wholeUp_bounds p
  rw [Int.fdiv_eq_ediv_of_nonneg _ (Int.natCast_nonneg _),
    Int.ediv_eq_iff_of_pos (Int.natCast_pos.mpr FP.unitsPerOne_pos), Int.neg_mul, ← Int.natCast_mul]
  omega

theorem FP.value_round_of_representable {m : Nat} (neg : Bool) (h : FP.Representable m) :
    FP.value (FP.round neg m 1) = if neg then -(m : Int) else m := by
  rw [FP.value, FP.sign_round, (h.round neg).2]

end Whole

section FloorCeil

variable {a : Long}

/-- A whole number that is exact, with the operand's sign, is finite, has that value and keeps the sign. -/
theorem FP.ofWhole_spec {n : Nat} (neg : Bool) {v : Int} (hv : (if neg then -(n : Int) else n) = v)
    (h : FP.Representable (n * FP.unitsPerOne)) : FP.isFinite (FP.ofWhole neg n) = true ∧
      FP.value (FP.ofWhole neg n) = v * FP.unitsPerOne ∧ FP.sign (FP.ofWhole neg n) = neg := by
  refine ⟨(h.round neg).1, ?_, FP.sign_round ..⟩
  rw [FP.ofWhole, FP.value_round_of_representable neg h, ← hv, Int.natCast_mul, ite_mul, Int.neg_mul]

/-- `floor` of a finite number is the greatest whole number not above it (R263). -/
theorem FP.floor_exact (h : FP.isFinite a = true) :
    ∃ p, FP.floor a = some p ∧ FP.isFinite p = true ∧
      FP.value p = (FP.value a).fdiv FP.unitsPerOne * FP.unitsPerOne ∧ FP.sign p = FP.sign a := by
  refine ⟨_, FP.floor_of_isFinite h, ?_⟩
  cases hs : FP.sign a
  case false =>
    rw [FP.value_of_not_sign hs, FP.fdiv_mag, if_neg Bool.false_ne_true]
    exact FP.ofWhole_spec false (if_neg Bool.false_ne_true) (FP.representable_wholeDown h)
  case true =>
    rw [FP.value_of_sign hs, FP.fdiv_neg_mag, if_pos rfl]
    exact FP.ofWhole_spec true (if_pos rfl) (FP.representable_wholeUp h)

/-- `ceil` of a finite number is the least whole number not below it (R263). -/
theorem FP.ceil_exact (h : FP.isFinite a = true) :
    ∃ p, FP.ceil a = some p ∧ FP.isFinite p = true ∧
      FP.value p = -((-FP.value a).fdiv FP.unitsPerOne * FP.unitsPerOne) ∧ FP.sign p = FP.sign a := by
  refine ⟨_, FP.ceil_of_isFinite h, ?_⟩
  rw [← Int.neg_mul]
  cases hs : FP.sign a
  case false =>
    rw [FP.value_of_not_sign hs, FP.fdiv_neg_mag, Int.neg_neg, if_neg Bool.false_ne_true]
    exact FP.ofWhole_spec false (if_neg Bool.false_ne_true) (FP.representable_wholeUp h)
  case true =>
    rw [FP.value_of_sign hs, Int.neg_neg, FP.fdiv_mag, if_pos rfl]
    exact FP.ofWhole_spec true (if_pos rfl) (FP.representable_wholeDown h)

/-- A zero is the whole number 0 with its sign. -/
theorem FP.ofWhole_zero (h : FP.isZero a = true) : FP.ofWhole (FP.sign a) 0 = a := by
  rw [FP.isZero_eq, decide_eq_true_eq] at h
  calc FP.ofWhole (FP.sign a) 0 = FP.pack (FP.sign a) 0 := by rw [FP.ofWhole, Nat.zero_mul]; rfl
    _ = a := h ▸ FP.pack_sign_magBits a

theorem FP.floor_ceil_of_isZero (h : FP.isZero a = true) : FP.floor a = some a ∧ FP.ceil a = some a := by
  have hfin := FP.isFinite_of_isZero h
  have hmag := (FP.mag_eq_zero_iff a).mpr h
  have hdown : FP.wholeDown a = 0 := by rw [FP.wholeDown, hmag, Nat.zero_div]
  have hup : FP.wholeUp a = 0 := by
    have hU := FP.unitsPerOne_pos
    rw [FP.wholeUp, hmag]
    exact Nat.div_eq_of_lt (by omega)
  rw [FP.floor_of_isFinite hfin, FP.ceil_of_isFinite hfin, hdown, hup, ite_self, FP.ofWhole_zero h]
  exact ⟨rfl, rfl⟩

theorem FP.floor_ceil_of_isInf (h : FP.isInf a = true) : FP.floor a = some a ∧ FP.ceil a = some a := by
  simp [FP.floor, FP.ceil, FP.isNan_of_isInf h, h]

theorem FP.floor_ceil_of_isNan (h : FP.isNan a = true) : FP.floor a = none ∧ FP.ceil a = none :=
  ⟨if_pos h, if_pos h⟩

end FloorCeil

section Fmod

variable {a b : Long}

/-- The truncated remainder of the values is that of the magnitudes, with the sign of the first. -/
theorem FP.tmod_value (a b : Long) : (FP.value a).tmod (FP.value b) =
    if FP.sign a then -((FP.mag a % FP.mag b : Nat) : Int) else (FP.mag a % FP.mag b : Nat) := by
  rw [FP.value, FP.value, Int.ofNat_tmod]
  cases FP.sign a <;> cases FP.sign b <;> simp [Int.neg_tmod, Int.tmod_neg]

/-- `fmod` of finite operands is `x - y * trunc(x / y)`, exactly (R263). -/
theorem FP.fmod_exact (ha : FP.isFinite a = true) (hb : FP.isFinite b = true) (h : FP.isZero b = false) :
    ∃ p, FP.fmod a b = some p ∧ FP.isFinite p = true ∧
      FP.value p = FP.value a - FP.value b * (FP.value a).tdiv (FP.value b) ∧
      FP.sign p = FP.sign a ∧ FP.mag p < FP.mag b := by
  have hpos := FP.mag_pos h
  have hrep := (FP.representable_mag ha).mod (FP.representable_mag hb) hpos
  obtain ⟨hfin, hmag⟩ := hrep.round (FP.sign a)
  refine ⟨_, FP.fmod_of_isFinite ha hb h, hfin, ?_, FP.sign_round .., hmag.trans_lt (Nat.mod_lt _ hpos)⟩
  rw [FP.value_round_of_representable _ hrep, ← FP.tmod_value, Int.tmod_def]

theorem FP.fmod_eq_none
    (h : FP.isNan a = true ∨ FP.isNan b = true ∨ FP.isInf a = true ∨ FP.isZero b = true) : FP.fmod a b = none := by
  rcases h with h | h | h | h <;> simp [FP.fmod, h]

theorem FP.fmod_of_isInf (ha : FP.isFinite a = true) (hb : FP.isInf b = true) : FP.fmod a b = some a := by
  simp [FP.fmod, FP.isNan_of_isFinite ha, FP.isInf_of_isFinite ha, FP.isNan_of_isInf hb, FP.isZero_of_isInf hb, hb]

end Fmod

/-- Settles O39: the whole numbers next to a finite one, and remainders, are exact (`FP.Representable`). -/
theorem floorCeilFmodFabsExact : Obligations.FloorCeilFmodFabsExact := by
  refine ⟨fun s fa fb => ⟨exec_writesF rfl rfl, fun h => ?default⟩, fun a ha => ⟨?floor, ?ceil⟩,
    fun a h => h.elim FP.floor_ceil_of_isZero FP.floor_ceil_of_isInf, fun a => FP.floor_ceil_of_isNan,
    fun a b => FP.fmod_exact, fun a b => ⟨FP.fmod_eq_none, FP.fmod_of_isInf⟩⟩
  case default =>
    have hfp := State.fp_binary64 h
    exact ⟨congrArg FpRecord.floor hfp, congrArg FpRecord.ceil hfp, congrArg FpRecord.fmod hfp,
      exec_writesF rfl (congrArg (fun r => FpRecord.fabs r (s.readF fb)) hfp)⟩
  case floor =>
    obtain ⟨p, hp, hfin, hvalue, hsign⟩ := FP.floor_exact ha
    exact ⟨p, hp, hfin, hvalue, fun _ => hsign⟩
  case ceil =>
    obtain ⟨p, hp, hfin, hvalue, hsign⟩ := FP.ceil_exact ha
    exact ⟨p, hp, hfin, hvalue, fun _ => hsign⟩

end Sys2Proof.Machine
end

section
/-! Proofs of the statements about the conversion instructions (46_conversion.md). A whole number of at most 53 bits is
the exact magnitude of a finite pattern, so the roundings of `FP.of_s32` and `FP.of_u32` change nothing; in the other
direction the truncated value is the truncated quotient of the value by the units in one. -/

namespace Sys2Proof.Machine

/-! ## Integers to numbers (R300 to R302) -/

/-- A significand of at most 53 bits is exact at every exponent below the greatest. -/
theorem FP.representable_significand {n e : Nat} (h : n ≤ 2 ^ 53) (he : e < 2045) :
    FP.Representable (n * 2 ^ e) := by
  have hle := Nat.mul_le_mul_right (2 ^ e) h
  refine ⟨FP.two_mul_lt_overflowHalf ?_, e, Nat.dvd_mul_left .., hle⟩
  calc n * 2 ^ e ≤ 2 ^ 53 * 2 ^ e := hle
    _ = 2 ^ 52 * 2 ^ (e + 1) := by ring
    _ ≤ FP.greatest := by
      rw [FP.greatest]
      gcongr
      · decide
      · decide
      · exact he

/-- A whole number below 2^32 is exact. -/
theorem FP.representable_whole_of_lt {n : Nat} (h : n < 2 ^ 32) : FP.Representable (n * FP.unitsPerOne) :=
  FP.representable_significand (e := 1074) (by omega) (by decide)

/-- `FP.of_s32` is exact (R300). -/
theorem FP.ofS32_exact (v : Word) :
    FP.isFinite (FP.ofS32 v) = true ∧ FP.value (FP.ofS32 v) = v.toInt * FP.unitsPerOne := by
  have hvalue : (if decide (v.toInt < 0) then -(v.toInt.natAbs : Int) else v.toInt.natAbs) = v.toInt := by
    simp only [decide_eq_true_eq]
    split <;> omega
  have hlow := BitVec.le_toInt v
  have hhigh := BitVec.toInt_lt (x := v)
  obtain ⟨hfin, hval, -⟩ := FP.ofWhole_spec _ hvalue (FP.representable_whole_of_lt (by omega))
  exact ⟨hfin, hval⟩

/-- `FP.of_u32` is exact (R300). -/
theorem FP.ofU32_exact (v : Word) :
    FP.isFinite (FP.ofU32 v) = true ∧ FP.value (FP.ofU32 v) = (v.toNat : Int) * FP.unitsPerOne := by
  obtain ⟨hfin, hval, -⟩ :=
    FP.ofWhole_spec false (if_neg Bool.false_ne_true) (FP.representable_whole_of_lt v.isLt)
  exact ⟨hfin, hval⟩

/-- The integer 0 becomes +0.0 (R300). -/
theorem FP.ofWhole_false_zero : FP.ofWhole false 0 = 0#64 := FP.ofWhole_zero (a := 0#64) rfl

/-- Settles O40. -/
theorem integersConvertExactly : Obligations.IntegersConvertExactly := by
  intro s fa ra
  obtain ⟨hsfin, hsvalue⟩ := FP.ofS32_exact (s.readX ra)
  obtain ⟨hufin, huvalue⟩ := FP.ofU32_exact (s.readX ra)
  refine ⟨⟨_, _, rfl, s.writesF_setF fa _, hsfin, hsvalue, fun h => ?_⟩,
    ⟨_, _, rfl, s.writesF_setF fa _, hufin, huvalue, fun h => ?_⟩⟩
  · rw [h]
    exact FP.ofWhole_false_zero
  · rw [h]
    exact FP.ofWhole_false_zero

/-! ## Numbers to integers (R300, R303, R304) -/

section WriteConverted

variable {i : Instr} {s : State} {ra : Reg} {r : Option Word}

/-- An instruction that ends in the write of a converted integer completes where there is one. -/
theorem exec_writesX_of_writeConverted (h : exec i s = s.writeConverted ra r) {w : Word} (hr : r = some w) :
    ∃ t, exec i s = .next t ∧ WritesX s t ra w := by
  subst hr
  exact exec_writesX h rfl

/-- Without a converted integer it raises FpUndefined, whatever the destination (R405). -/
theorem exec_fault_of_writeConverted (h : exec i s = s.writeConverted ra r) (hr : r = none) :
    exec i s = .fault .fpUndefined := by
  subst hr
  exact h

end WriteConverted

theorem FP.trunc_eq_tdiv (p : Long) : FP.trunc p = (FP.value p).tdiv FP.unitsPerOne := by
  rw [FP.trunc, FP.value, FP.wholeDown]
  split
  · rw [Int.neg_tdiv, Int.ofNat_tdiv]
  · rw [Int.ofNat_tdiv]

theorem FP.toS32_of_inRange {p : Long} (hfin : FP.isFinite p = true) (hlow : -2147483648 ≤ FP.trunc p)
    (hhigh : FP.trunc p ≤ 2147483647) : FP.toS32 p = some (BitVec.ofInt 32 (FP.trunc p)) :=
  if_pos (Bool.and_eq_true_iff.mpr ⟨hfin, decide_eq_true ⟨hlow, hhigh⟩⟩)

theorem FP.toS32_eq_none {p : Long}
    (h : FP.isFinite p = false ∨ FP.trunc p < -2147483648 ∨ 2147483647 < FP.trunc p) : FP.toS32 p = none := by
  refine if_neg fun hin => ?_
  obtain ⟨hfin, hrange⟩ := Bool.and_eq_true_iff.mp hin
  obtain ⟨hlow, hhigh⟩ := of_decide_eq_true hrange
  rcases h with hinf | hbelow | habove
  · exact Bool.false_ne_true (hinf.symm.trans hfin)
  · omega
  · omega

/-! The absolute value (R263): the sign is cleared and the magnitude kept. -/

theorem FP.sign_fabs (p : Long) : FP.sign (FP.fabs p) = false := by
  rw [FP.sign_eq_msb, FP.fabs, BitVec.msb_and]
  exact Bool.and_false _

theorem FP.magBits_fabs (p : Long) : FP.magBits (FP.fabs p) = FP.magBits p := by
  have hmask : (0x7FFFFFFFFFFFFFFF#64).toNat = 2 ^ 63 - 1 := rfl
  rw [FP.magBits, FP.fabs, BitVec.toNat_and, hmask, Nat.and_two_pow_sub_one_eq_mod, Nat.mod_mod, FP.magBits]

theorem FP.isFinite_fabs (p : Long) : FP.isFinite (FP.fabs p) = FP.isFinite p := by
  rw [FP.isFinite_eq, FP.isFinite_eq, FP.magBits_fabs]

theorem FP.mag_fabs (p : Long) : FP.mag (FP.fabs p) = FP.mag p := by
  rw [FP.mag, FP.mag, FP.frac_eq, FP.frac_eq, FP.expo, FP.expo, FP.magBits_fabs]

theorem FP.trunc_fabs (p : Long) : FP.trunc (FP.fabs p) = (FP.mag p / FP.unitsPerOne : Nat) := by
  rw [FP.trunc, FP.sign_fabs, if_neg Bool.false_ne_true, FP.wholeDown, FP.mag_fabs]

/-- Settles O41: each of the two ends in `State.writeConverted`, and `FP.to_s32` of the default record has a result just
where the truncated value is in range. -/
theorem floatsConvertByTruncation : Obligations.FloatsConvertByTruncation := by
  intro s ra fa p v m
  have hcfi : exec (.cfi ra fa) s = s.writeConverted ra (s.fp.toS32 p) := rfl
  have hcfu : exec (.cfu ra fa) s = s.writeConverted ra (s.fp.toS32 (s.fp.fabs p)) := rfl
  have htrunc : FP.trunc p = v := FP.trunc_eq_tdiv p
  have habs : FP.trunc (FP.fabs p) = m := FP.trunc_fabs p
  clear_value v m
  refine ⟨fun _ => exec_writesX_of_writeConverted hcfi, exec_fault_of_writeConverted hcfi,
    fun _ => exec_writesX_of_writeConverted hcfu, exec_fault_of_writeConverted hcfu, fun h => ?default⟩
  case default =>
    rw [State.fp_binary64 h] at hcfi hcfu
    change exec (.cfi ra fa) s = s.writeConverted ra (FP.toS32 p) at hcfi
    change exec (.cfu ra fa) s = s.writeConverted ra (FP.toS32 (FP.fabs p)) at hcfu
    refine ⟨fun hfin hlow hhigh => exec_writesX_of_writeConverted hcfi ?_,
      fun hout => exec_fault_of_writeConverted hcfi (FP.toS32_eq_none (htrunc ▸ hout)),
      fun hfin hhigh => exec_writesX_of_writeConverted hcfu ?_,
      fun hout => exec_fault_of_writeConverted hcfu (FP.toS32_eq_none ?_)⟩
    · rw [← htrunc] at hlow hhigh ⊢
      exact FP.toS32_of_inRange hfin hlow hhigh
    · rw [← BitVec.ofInt_natCast, ← habs]
      exact FP.toS32_of_inRange ((FP.isFinite_fabs p).trans hfin) (by omega) (by omega)
    · rw [FP.isFinite_fabs, habs]
      exact hout.imp_right fun hhigh => .inr (by omega)

end Sys2Proof.Machine
end

section
/-! Proofs of the statements about the system instructions (47_system.md). Such an instruction writes one register or
one field, then `next`; with that field put back, the state is the one a plain register write, or `next` alone, leaves,
and the frames of those apply. -/

namespace Sys2Proof.Machine

/-! ## A field put back after a register write -/

theorem State.advance_setIena_restored (s : State) (rc : Reg) (v : Word) (b : BitVec 1) :
    { ((s.setX rc v).setIena b).advance with iena := s.iena } = (s.setX rc v).advance := by
  rw [← s.setX_iena rc v]
  rfl

theorem State.setConsoleIn_setX (s : State) (c : ConsoleIn) (rc : Reg) (v : Word) :
    (s.setConsoleIn c).setX rc v = (s.setX rc v).setConsoleIn c := by
  by_cases h : rc = 0
  · rw [h, State.setX_zero, State.setX_zero]
  · rw [State.setX, if_neg h, State.setX, if_neg h]
    rfl

theorem State.advance_setConsoleIn_restored (s : State) (c : ConsoleIn) (rc : Reg) (v : Word) :
    { ((s.setConsoleIn c).setX rc v).advance with consoleIn := s.consoleIn } = (s.setX rc v).advance := by
  rw [s.setConsoleIn_setX, ← s.setX_consoleIn rc v]
  rfl

/-! ## CLI (R311) -/

theorem exec_cli (s : State) (rc : Reg) :
    exec (.cli rc) s = .next ((s.setX rc (s.iena.setWidth 32)).setIena 0#1).advance := by
  rw [← zext32_eq]
  rfl

/-- Settles O42: with IENA put back, the write of the old IENA to rc is all there is. -/
theorem cliReadsThenClears : Obligations.CliReadsThenClears := by
  intro s rc
  obtain ⟨⟨hregs, hmem, hsystem, houtside⟩, hresult, hpc, hdraws⟩ := s.writesX_setX rc (s.iena.setWidth 32)
  refine ⟨_, exec_cli s rc, hresult, rfl, ⟨hregs.x, hregs.f⟩, hmem, ?system,
    ⟨houtside.consoleIn, houtside.consoleOut, houtside.halted, houtside.params⟩, hpc, hdraws⟩
  case system => rwa [State.advance_setIena_restored]

/-! ## STI, STPG, STTO (R312, R321, R322; log 4) -/

section ControlWrite

variable {i : Instr} {s w : State} {setting : ControlWrites} {m : String}

theorem exec_refused_of_controlWrite (h : exec i s = controlWrite setting m w) (hset : setting = .refuse) :
    exec i s = .refused (.controlWriteRefused m) := by
  subst hset
  exact h

theorem exec_next_of_controlWrite (h : exec i s = controlWrite setting m w) (hset : setting = .record) :
    exec i s = .next w.advance := by
  subst hset
  exact h

end ControlWrite

theorem exec_sti (s : State) : exec .sti s = controlWrite s.params.stiWrite "STI" (s.setIena 1#1) := rfl

theorem exec_stpg (s : State) (rc : Reg) :
    exec (.stpg rc) s = controlWrite s.params.pgToWrite "STPG" (s.setPg (s.readX rc)) := rfl

theorem exec_stto (s : State) (rc : Reg) :
    exec (.stto rc) s = controlWrite s.params.pgToWrite "STTO" (s.setTout (s.readX rc)) := rfl

/-- Settles O43: each of the three is a control write, refused or recorded by its setting. -/
theorem controlWritesRefuseOrRecord : Obligations.ControlWritesRefuseOrRecord := fun s rc =>
  ⟨exec_refused_of_controlWrite (exec_sti s),
    fun hset => ⟨exec_refused_of_controlWrite (exec_stpg s rc) hset,
      exec_refused_of_controlWrite (exec_stto s rc) hset⟩,
    fun hset => ⟨_, exec_next_of_controlWrite (exec_sti s) hset, rfl, s.jumpsTo_advance⟩,
    fun hset => ⟨⟨_, exec_next_of_controlWrite (exec_stpg s rc) hset, rfl, s.jumpsTo_advance⟩,
      _, exec_next_of_controlWrite (exec_stto s rc) hset, rfl, s.jumpsTo_advance⟩⟩

/-! ## Moves from and to the system registers (R313, R314, R319, R320, R323, 48_memory_block.md R341) -/

theorem exec_lusp (s : State) (rc : Reg) : exec (.lusp rc) s = s.writeX rc s.usp := rfl

theorem exec_lvad (s : State) (rc : Reg) : exec (.lvad rc) s = s.writeX rc s.vadr := rfl

theorem exec_lmsz (s : State) (rc : Reg) : exec (.lmsz rc) s = s.writeX rc (wrap32 s.memsz) := rfl

theorem exec_susp (s : State) (rc : Reg) : exec (.susp rc) s = .next (s.setUsp (s.readX rc)).advance := rfl

theorem exec_stiv (s : State) (rc : Reg) : exec (.stiv rc) s = .next (s.setIvec (s.readX rc)).advance := rfl

theorem exec_stpd (s : State) (rc : Reg) : exec (.stpd rc) s = .next (s.setPdir (s.readX rc)).advance := rfl

/-- Settles O44. -/
theorem systemRegisterMoves : Obligations.SystemRegisterMoves := fun s rc rd =>
  ⟨exec_writesX (exec_lusp s rc) rfl, exec_writesX (exec_lvad s rc) rfl,
    exec_writesX (exec_lmsz s rc) (BitVec.ofInt_natCast 32 s.memsz),
    ⟨_, exec_susp s rc, rfl, s.jumpsTo_advance, exec_writesX (exec_lusp _ rd) rfl⟩,
    ⟨_, exec_stiv s rc, rfl, s.jumpsTo_advance⟩,
    _, exec_stpd s rc, rfl, s.jumpsTo_advance⟩

/-! ## The console (R316, R317) -/

section Bin

variable {s : State} {c : ConsoleIn} {b : Byte} (rc : Reg)

theorem exec_bin_of_take_none (h : s.consoleIn.take = none) : exec (.bin rc) s = s.writeX rc 0xFFFFFFFF#32 := by
  change execBin rc s = _
  rw [execBin, h]

theorem exec_bin_of_take_some (h : s.consoleIn.take = some (b, c)) :
    exec (.bin rc) s = (s.setConsoleIn c).writeX rc (b.setWidth 32) := by
  change execBin rc s = _
  rw [execBin, h, ← zext32_eq]

/-- A byte that is taken leaves the input and goes to rc, whether it was a listed one or one of the infinite tail. -/
theorem exec_bin_writes_of_take_some (h : s.consoleIn.take = some (b, c)) :
    ∃ t, exec (.bin rc) s = .next t ∧ t.consoleIn = c ∧
      WritesX s { t with consoleIn := s.consoleIn } rc (b.setWidth 32) := by
  refine ⟨_, exec_bin_of_take_some rc h, ?input, ?frame⟩
  case input => rw [State.advance_consoleIn, State.setX_consoleIn, State.setConsoleIn_consoleIn]
  case frame =>
    rw [State.advance_setConsoleIn_restored]
    exact s.writesX_setX rc _

end Bin

theorem exec_bout (s : State) (rc : Reg) :
    exec (.bout rc) s = .next (s.setConsoleOut (s.consoleOut ++ [(s.readX rc).setWidth 8])).advance := by
  rw [BitVec.setWidth_eq_extractLsb' (by decide)]
  rfl

/-- Settles O45: the three forms of the input are the three answers of `ConsoleIn.take`. -/
theorem consoleBytesMove : Obligations.ConsoleBytesMove := by
  intro s rc
  refine ⟨fun hin => ?ended, fun b bs e hin => ?listed, fun k pos hin => ?endless,
    _, exec_bout s rc, rfl, s.jumpsTo_advance⟩
  case ended => exact exec_writesX (exec_bin_of_take_none rc (by rw [hin]; rfl)) rfl
  case listed => exact exec_bin_writes_of_take_some rc (by rw [hin]; rfl)
  case endless => exact exec_bin_writes_of_take_some rc (by rw [hin]; rfl)

/-! ## Refusals (R310, R315, R318, 48_memory_block.md R343, R344) -/

/-- Settles O46: the source describes none of the five, so no state and no operand is read. -/
theorem undescribedInstructionsRefuse : Obligations.UndescribedInstructionsRefuse := fun _ _ _ _ =>
  ⟨rfl, rfl, rfl, rfl, rfl⟩

end Sys2Proof.Machine
end

section
/-! Proofs of the statements about the step of the machine and its launch (60_exceptions.md, 70_reset_and_hazards.md):
when a step stops before its instruction, which instruction it runs, and the launch premises of R451 that no
instruction of the default model undoes. -/

namespace Sys2Proof.Machine

/-! ## The launch premises (70_reset_and_hazards.md R451) -/

/-- PG and TO are written only where the setting records STPG and STTO (47_system.md R321, R322). -/
theorem exec_keeps_pgToPremises {i : Instr} {s t : State} (hs : s.PgToPremises) (h : exec i s = .next t) :
    t.PgToPremises := by
  obtain ⟨hrefuse, hpg, htout⟩ := hs
  cases exec_next h
  case stpg hrecord | stto hrecord => cases hrefuse.symm.trans hrecord
  all_goals exact ⟨by simpa using hrefuse, by simpa using hpg, by simpa using htout⟩

/-- CLI clears IENA, and STI sets it only where the setting records that (47_system.md R311, R312). -/
theorem exec_keeps_iena_zero {i : Instr} {s t : State} (hrefuse : s.params.stiWrite = .refuse) (hs : s.iena = 0#1)
    (h : exec i s = .next t) : t.iena = 0#1 := by
  cases exec_next h
  case sti hrecord => cases hrefuse.symm.trans hrecord
  case cli => rfl
  all_goals simpa using hs

theorem exec_keeps_params {i : Instr} {s t : State} (h : exec i s = .next t) : t.params = s.params := by
  obtain ⟨_, _, _, _, _, _, _, _, _, _, _, hparams⟩ := systemStateChangesOnlyByItsInstructions i s t h
  exact hparams

theorem exec_keeps_defaultPremises {i : Instr} {s t : State} (hs : s.DefaultPremises) (h : exec i s = .next t) :
    t.DefaultPremises where
  pgTo := exec_keeps_pgToPremises hs.pgTo h
  refuses := exec_keeps_params h ▸ hs.refuses
  iena := exec_keeps_iena_zero hs.refuses hs.iena h

/-- Settles O54: the next state of a step is that of the instruction fetched, and no instruction leaves the
premises. -/
theorem defaultModelKeepsPremises : Obligations.DefaultModelKeepsPremises := by
  refine ⟨fun s t hs h => ?pgTo, fun s t hs h => ?default⟩
  case pgTo =>
    obtain ⟨_, _, i, _, hexec⟩ := step_next h
    exact exec_keeps_pgToPremises hs hexec
  case default =>
    obtain ⟨_, _, i, _, hexec⟩ := step_next h
    exact exec_keeps_defaultPremises hs hexec

/-- Settles O50: PG, TO and MEMSZ are as the invariants that reset meets say. -/
theorem resetMeetsLaunchPremises : Obligations.ResetMeetsLaunchPremises := by
  obtain ⟨⟨_, _, _, hsize, hmax⟩, _, hpg, htout⟩ := resetIsValid
  exact ⟨rfl, hpg, htout, by decide, by decide, hsize, hmax⟩

/-! ## What a step does (60_exceptions.md R406, R435) -/

/-- With translation off a running machine stops as its fetch does. -/
theorem step_of_fetch_error {s : State} {r : Fault} (hrun : s.Running) (h : s.fetch = .error r) :
    step s = .fault r := by
  obtain ⟨hhalt, hpg⟩ := hrun
  simp [step, hhalt, hpg, h, raise]

theorem State.fetch_of_fetchable {s : State} (h : s.Fetchable) :
    s.fetch = .ok (Memory.readBytes s.mem s.pc 4) := by
  obtain ⟨halign, hin⟩ := h
  rw [State.fetch, if_pos halign, firstBad_mayRead.mpr hin]

theorem State.fetch_of_misaligned {s : State} (h : s.pc.toNat % 4 ≠ 0) :
    s.fetch = .error (.misaligned s.pc 4 .fetch) :=
  if_neg h

theorem State.fetch_of_outside {s : State} (halign : s.pc.toNat % 4 = 0) (hout : ¬ s.InMemory s.pc 4) :
    s.fetch = .error (.accessFault s.pc 4 .fetch) := by
  rcases s.fetch_cases with ⟨⟨_, hin⟩, _⟩ | ⟨_, _, h⟩ | ⟨hmis, _⟩
  · exact absurd hin hout
  · exact h
  · exact absurd halign hmis

/-- Settles O9: the checks of a step, one after the other. -/
theorem stepStopsBeforeExecution : Obligations.StepStopsBeforeExecution := by
  refine ⟨fun s => step_of_halted, fun s hrun => ⟨fun hmis => ?misaligned, fun halign hout => ?outside,
    fun hfetch e => step_of_decode_error hrun hfetch⟩⟩
  case misaligned => exact step_of_fetch_error hrun (State.fetch_of_misaligned hmis)
  case outside => exact step_of_fetch_error hrun (State.fetch_of_outside halign hout)

/-- Settles O8: the bytes fetched are those of the word at the pc. -/
theorem stepRunsDecodedInstruction : Obligations.StepRunsDecodedInstruction := by
  intro s i ⟨hhalt, hpg⟩ hfetch hdec
  rw [← s.decodeBytes_readBytes] at hdec
  simp [step, hhalt, hpg, State.fetch_of_fetchable hfetch, hdec]

end Sys2Proof.Machine
end

section
/-! Proofs of the statements about the block instructions (48_memory_block.md). MCPY and MSET check their ranges, and
then both end in `State.blockStore`; what the checks and that end do is said once. -/

namespace Sys2Proof.Machine

/-! ## The first bad byte of a range (R405) -/

/-- A range whose first `k` bytes are allowed and whose first `k + 1` are not stops at byte `k`. -/
theorem firstBad_eq_some_of_prefix {ok : Word → Bool} {a : Word} {k n : Nat} (hk : k < n)
    (hgood : firstBad ok a k = none) (hbad : firstBad ok a (k + 1) ≠ none) :
    firstBad ok a n = some (wrapAddr a k) := by
  have hbefore : ∀ j, j < k → ok (wrapAddr a j) = true := firstBad_eq_none.mp hgood
  refine firstBad_eq_some.mpr ⟨k, hk, rfl, Bool.eq_false_iff.mpr fun hok => hbad ?_, hbefore⟩
  refine firstBad_eq_none.mpr fun j hj => ?_
  rcases Nat.lt_succ_iff_lt_or_eq.mp hj with hlt | rfl
  · exact hbefore j hlt
  · exact hok

section FirstBad

variable {s : State} {a : Word} {k n : Nat}

theorem firstBad_mayRead_eq_some (hk : k < n) (hgood : s.InMemory a k) (hbad : ¬ s.InMemory a (k + 1)) :
    firstBad s.mayRead a n = some (wrapAddr a k) :=
  firstBad_eq_some_of_prefix hk (firstBad_mayRead.mpr hgood) (mt firstBad_mayRead.mp hbad)

theorem firstBad_mayStore_eq_some (hk : k < n) (hgood : s.Storable a k) (hbad : ¬ s.Storable a (k + 1)) :
    firstBad s.mayStore a n = some (wrapAddr a k) :=
  firstBad_eq_some_of_prefix hk (firstBad_mayStore.mpr hgood) (mt firstBad_mayStore.mp hbad)

end FirstBad

/-! ## The answers of MCPY and MSET (R342, R345), in the order of their checks -/

theorem rangesOverlap_eq_false {d src : Word} {n : Nat} (hn : n < 2 ^ 32) (h : ¬ SharesByte d src n) :
    rangesOverlap d src n = false :=
  Bool.eq_false_iff.mpr (mt (rangesOverlap_iff hn).mp h)

section Answers

variable {s : State} {ra rb rc : Reg} {a : Word}

theorem exec_mcpy_of_sharesByte (h : SharesByte (s.readX ra) (s.readX rb) (s.readX rc).toNat) :
    exec (.mcpy ra rb rc) s = .refused .mcpyOverlap :=
  if_pos ((rangesOverlap_iff (s.readX rc).isLt).mpr h)

section Disjoint

variable (h : ¬ SharesByte (s.readX ra) (s.readX rb) (s.readX rc).toNat)
include h

theorem exec_mcpy_of_bad_source (hsrc : firstBad s.mayRead (s.readX rb) (s.readX rc).toNat = some a) :
    exec (.mcpy ra rb rc) s = .fault (.accessFault a 1 .load) := by
  change execMcpy ra rb rc s = _
  simp [execMcpy, rangesOverlap_eq_false (s.readX rc).isLt h, hsrc, raise]

theorem exec_mcpy_of_bad_destination (hsrc : s.InMemory (s.readX rb) (s.readX rc).toNat)
    (hdst : firstBad s.mayStore (s.readX ra) (s.readX rc).toNat = some a) :
    exec (.mcpy ra rb rc) s = .fault (.accessFault a 1 .store) := by
  change execMcpy ra rb rc s = _
  simp [execMcpy, rangesOverlap_eq_false (s.readX rc).isLt h, firstBad_mayRead.mpr hsrc, hdst, raise]

theorem exec_mcpy_eq_blockStore (hsrc : s.InMemory (s.readX rb) (s.readX rc).toNat)
    (hdst : s.Storable (s.readX ra) (s.readX rc).toNat) :
    exec (.mcpy ra rb rc) s =
      s.blockStore ra rb rc (s.readX ra) (Memory.readBytes s.mem (s.readX rb) (s.readX rc).toNat) := by
  change execMcpy ra rb rc s = _
  simp [execMcpy, rangesOverlap_eq_false (s.readX rc).isLt h, firstBad_mayRead.mpr hsrc, firstBad_mayStore.mpr hdst]

end Disjoint

theorem exec_mset_of_bad_destination (hdst : firstBad s.mayStore (s.readX ra) (s.readX rc).toNat = some a) :
    exec (.mset ra rb rc) s = .fault (.accessFault a 1 .store) := by
  change execMset ra rb rc s = _
  simp [execMset, hdst, raise]

theorem exec_mset_eq_blockStore (hdst : s.Storable (s.readX ra) (s.readX rc).toNat) :
    exec (.mset ra rb rc) s =
      s.blockStore ra rb rc (s.readX ra) (List.replicate (s.readX rc).toNat ((s.readX rb).setWidth 8)) := by
  rw [BitVec.setWidth_eq_extractLsb' (by decide)]
  change execMset ra rb rc s = _
  simp [execMset, firstBad_mayStore.mpr hdst]

end Answers

/-- Settles O49. -/
theorem blockInstructionsStop : Obligations.BlockInstructionsStop := by
  intro s ra rb rc d src n
  refine ⟨exec_mcpy_of_sharesByte, fun hdisj k hk hgood hbad => ?source, fun hdisj hsrc k hk hgood hbad => ?copy,
    fun k hk hgood hbad => ?fill⟩
  case source => exact exec_mcpy_of_bad_source hdisj (firstBad_mayRead_eq_some hk hgood hbad)
  case copy => exact exec_mcpy_of_bad_destination hdisj hsrc (firstBad_mayStore_eq_some hk hgood hbad)
  case fill => exact exec_mset_of_bad_destination (firstBad_mayStore_eq_some hk hgood hbad)

/-! ## Block instructions that complete (R340) -/

/-- The end of a block instruction leaves all but its bytes, the named registers and the pc as they were; the canonical
form of memory makes the bytes read back. -/
theorem State.storesBytes_drawNamed {s : State} (hm : Memory.wf s.mem) (ra rb rc : Reg) (d : Word) {bs : List Byte}
    (hlen : bs.length ≤ 2 ^ 32) :
    StoresBytes s ((s.setMem (Memory.writeBytes s.mem d bs)).drawNamed ra rb rc).advance d bs [ra, rb, rc] where
  stored k hk := by
    rw [State.advance_mem, State.drawNamed_mem]
    exact Memory.read_writeBytes s.mem d bs k hm hlen hk
  others b hb := by
    rw [State.advance_mem, State.drawNamed_mem]
    exact Memory.read_writeBytes_ne s.mem d bs b hb
  regs :=
    { x := fun _ hq => State.drawNamed_readX_of_notMem _ hq
      f := fun _ _ => by simp }
  system := by constructor <;> simp
  outside := by constructor <;> simp
  pc := by simp [NextPc]

/-- An instruction that ends by storing the `n` bytes `byte 0`, `byte 1`, … leaves just these in its destination. -/
theorem exec_blockStore_completes {i : Instr} {s : State} {ra rb rc : Reg} {d : Word} {bs : List Byte} {n : Nat}
    {byte : Nat → Byte} (h : exec i s = s.blockStore ra rb rc d bs) (hm : Memory.wf s.mem) (hlen : bs.length = n)
    (hn : n ≤ 2 ^ 32) (hbyte : ∀ k (hk : k < bs.length), bs[k] = byte k) :
    ∃ t, exec i s = .next t ∧ (∀ k, k < n → t.byteFrom d k = byte k) ∧ SameMemBut s t d n ∧
      SameRegs s t [ra, rb, rc] [] ∧ t.readX 0 = 0#32 ∧ SameSystem s t ∧ SameOutside s t ∧ NextPc s t := by
  subst hlen
  obtain ⟨hstored, hothers, hregs, hsystem, houtside, hpc⟩ := State.storesBytes_drawNamed hm ra rb rc d hn
  exact ⟨_, h, fun k hk => (hstored k hk).trans (hbyte k hk), hothers, hregs, State.readX_zero _, hsystem, houtside,
    hpc⟩

/-- Settles O47: what is stored is what stood at the source before. -/
theorem blockCopyMovesBytes : Obligations.BlockCopyMovesBytes := by
  intro s ra rb rc hm d src n hdisj hsrc hdst
  exact exec_blockStore_completes (exec_mcpy_eq_blockStore hdisj hsrc hdst) hm (Memory.length_readBytes s.mem src n)
    (s.readX rc).isLt.le (Memory.getElem_readBytes s.mem src n)

/-- Settles O48: what is stored is one byte, repeated. -/
theorem blockFillSetsBytes : Obligations.BlockFillSetsBytes := by
  intro s ra rb rc hm d n hdst
  exact exec_blockStore_completes (exec_mset_eq_blockStore hdst) hm List.length_replicate (s.readX rc).isLt.le
    fun _ hk => List.getElem_replicate hk

end Sys2Proof.Machine
end
